-- ==== Sys2Proof/Word.lean ====
section
/-! DEFINITION. The one word the PF768's links and rack lines carry: a byte. Every quantity the manual treats as a
number (levels, times, cue numbers, counts) is a plain `Nat` inside the model; only what travels on a line is a bit
vector. -/

namespace Sys2Proof

/-- One character of a desk link or of a rack line: 8 data bits (R155, R187). -/
abbrev Byte := BitVec 8

end Sys2Proof
end

