-- ==== Sys2Proof/Config.lean ====
section
/-! DEFINITION. The capacities and durations the manual fixes for the part. The manual leaves no result open, so no
free value stands here. -/

namespace Sys2Proof.Config

/-- Move entries in the move store (R3). -/
def moveStore : Nat := 4096
/-- Restore pairs in the restore area (R64). -/
def restorePairs : Nat := 2048
/-- Restore entries one playback's stack holds at most (R63). -/
def restoreDepth : Nat := 8
/-- Run entries the run list holds at most (R25). -/
def runEntries : Nat := 16
/-- Starts one chain of follows makes at most (R37). -/
def chainStarts : Nat := 32
/-- Requests pending on one link at most (R157). -/
def queueDepth : Nat := 4
/-- Entries of one show bank at most (R75). -/
def bankEntries : Nat := 1024
/-- Entries of the park list at most (R111). -/
def parkEntries : Nat := 64
/-- Entries of one override look at most (R131). -/
def lookEntries : Nat := 128
/-- Moves of one CUE_MOVES and pairs of one MANUAL at most (R15, R33). -/
def batchEntries : Nat := 48
/-- Moves one cue declares at most (R1). -/
def declaredMoves : Nat := 512
/-- The full level (Conventions). -/
def full : Nat := 65535
/-- The level from which a circuit counts as lit (R139, R148). -/
def lit : Nat := 32768
/-- The highest cue number (Conventions). -/
def lastCue : Nat := 9999
/-- The longest time, delay or follow time, in tenths (Conventions, R48). -/
def lastTenths : Nat := 9999
/-- Progress units of one tenth of a second (R48). -/
def puPerTenth : Nat := 1000
/-- The echo timer's run, in ms: 2.0 s (R34). -/
def echoMs : Nat := 2000
/-- One unit of a flash time, in ms (R111). -/
def flashUnitMs : Nat := 20
/-- One unit of a silence limit, in ms (R159). -/
def silenceUnitMs : Nat := 100
/-- Shortest and longest telegram length the receivers accept (R155). -/
def minLength : Nat := 2
def maxLength : Nat := 1100
/-- The start byte of a telegram (R155). -/
def startByte : Byte := 0xC3

end Sys2Proof.Config
end

