-- ==== Sys2Proof/Machine/Table.lean ====
section
/-! DEFINITION. A fixed number of like things (32 slots, 512 channels, 768 circuits): a list with its length. Plain data, with a
total read and write for every index. -/

namespace Sys2Proof.Machine

/-- `n` cells of one kind. -/
structure Table (n : Nat) (α : Type) where
  cells : List α
  size : cells.length = n
deriving DecidableEq, Repr

/-- The cell at `i`. -/
def Table.get {n : Nat} {α : Type} (t : Table n α) (i : Fin n) : α := t.cells[i.val]'(by rw [t.size]; exact i.isLt)

/-- The table with `a` at `i` and every other cell as it was. -/
def Table.set {n : Nat} {α : Type} (t : Table n α) (i : Fin n) (a : α) : Table n α :=
  ⟨t.cells.set i a, by simp [t.size]⟩

/-- The table with `f` applied to the cell at `i`. -/
def Table.modify {n : Nat} {α : Type} (t : Table n α) (i : Fin n) (f : α → α) : Table n α := t.set i (f (t.get i))

/-- The table whose every cell is `a`. -/
def Table.fill {α : Type} (n : Nat) (a : α) : Table n α := ⟨List.replicate n a, by simp⟩

/-- The table whose cell at `i` is `f i`. -/
def Table.tabulate {n : Nat} {α : Type} (f : Fin n → α) : Table n α := ⟨List.ofFn f, by simp⟩

/-- `f` applied to every cell. -/
def Table.map {n : Nat} {α β : Type} (f : α → β) (t : Table n α) : Table n β := ⟨t.cells.map f, by simp [t.size]⟩

/-- How many cells satisfy `p`. -/
def Table.count {n : Nat} {α : Type} (t : Table n α) (p : α → Bool) : Nat := (t.cells.filter p).length

end Sys2Proof.Machine
end

