-- ==== Sys2Proof/Syntax.lean ====
section
/-! DEFINITION. The commands of the PF768: one constructor for each row of spec/opcode_table.json. A REQUEST row (STATUS to
SAVE, and UNKNOWN_KIND) is one request of a master: the link it comes from, its tag and its body bytes as the telegram
carries them (R184), so that every form a telegram can have is an operand form here, a body of the wrong size included.
An EVENT row (a timer's expiry, a byte, a pin) names the link, playback, line or circuit it happens to. -/

namespace Sys2Proof

/-- The three links (Terms): A and B lead to the lighting desks, C to the floor remote. -/
inductive Link where
  | a | b | c
deriving DecidableEq, Repr

/-- The two desk links: the only links that can lead, fill a slot or start a fade. -/
inductive Desk where
  | a | b
deriving DecidableEq, Repr

/-- The level of a stage line lead (R123). -/
inductive LineLevel where
  | low | high
deriving DecidableEq, Repr

/-- One request as its telegram carries it: kind, tag and body (chapter 12, the envelope). -/
structure Request where
  kind : Byte
  tag : Byte
  body : List Byte
deriving DecidableEq, Repr

/-- The commands, one per row of the opcode table, in the table's order. -/
inductive Instr where
  | validTelegram (link : Link) (kind tag : Byte) (body : List Byte)
  | badTelegram (link : Link)
  | interByteGap (link : Link)
  | replySent (link : Link)
  | unknownKind (link : Link) (kind tag : Byte) (body : List Byte)
  | status (link : Link) (tag : Byte) (body : List Byte)
  | read (link : Link) (tag : Byte) (body : List Byte)
  | takeLead (link : Link) (tag : Byte) (body : List Byte)
  | yieldLead (link : Link) (tag : Byte) (body : List Byte)
  | linkSetup (link : Link) (tag : Byte) (body : List Byte)
  | cueOpen (link : Link) (tag : Byte) (body : List Byte)
  | cueMoves (link : Link) (tag : Byte) (body : List Byte)
  | cueClose (link : Link) (tag : Byte) (body : List Byte)
  | cueDrop (link : Link) (tag : Byte) (body : List Byte)
  | go (link : Link) (tag : Byte) (body : List Byte)
  | back (link : Link) (tag : Byte) (body : List Byte)
  | manual (link : Link) (tag : Byte) (body : List Byte)
  | release (link : Link) (tag : Byte) (body : List Byte)
  | hold (link : Link) (tag : Byte) (body : List Byte)
  | resume (link : Link) (tag : Byte) (body : List Byte)
  | rate (link : Link) (tag : Byte) (body : List Byte)
  | pbLevel (link : Link) (tag : Byte) (body : List Byte)
  | playbackSetup (link : Link) (tag : Byte) (body : List Byte)
  | fadeTick
  | followDue (entry : Fin 16)
  | echoTimerExpiry (playback : Fin 4)
  | patchSet (link : Link) (tag : Byte) (body : List Byte)
  | bankClear (link : Link) (tag : Byte) (body : List Byte)
  | bankCopy (link : Link) (tag : Byte) (body : List Byte)
  | bankSelect (link : Link) (tag : Byte) (body : List Byte)
  | rebuildEnd
  | startBank (link : Link) (tag : Byte) (body : List Byte)
  | profileSet (link : Link) (tag : Byte) (body : List Byte)
  | lawLoad (link : Link) (tag : Byte) (body : List Byte)
  | park (link : Link) (tag : Byte) (body : List Byte)
  | flash (link : Link) (tag : Byte) (body : List Byte)
  | nudge (link : Link) (tag : Byte) (body : List Byte)
  | unpark (link : Link) (tag : Byte) (body : List Byte)
  | flashTimerExpiry (circuit : Fin 768)
  | lineInputChange (line : Fin 4) (level : LineLevel)
  | debounceTimerExpiry (line : Fin 4)
  | lineSetup (link : Link) (tag : Byte) (body : List Byte)
  | lookSet (link : Link) (tag : Byte) (body : List Byte)
  | lookRaise (link : Link) (tag : Byte) (body : List Byte)
  | lookLower (link : Link) (tag : Byte) (body : List Byte)
  | grand (link : Link) (tag : Byte) (body : List Byte)
  | rackSetup (link : Link) (tag : Byte) (body : List Byte)
  | frameStart (rack : Fin 3)
  | save (link : Link) (tag : Byte) (body : List Byte)
  | saveEnd
  | saveWriteFailure
  | silenceMonitorExpiry (link : Link)
  | resetAssert
  | coldStart
  | supplyDip
  | dipRestart
  | linkByteReceived (link : Link) (byte : Byte)
deriving DecidableEq, Repr

end Sys2Proof
end

