-- ==== Sys2Proof/Machine/State.lean ====
section
/-! DEFINITION. Everything the manual gives the PF768 to hold, block by block, as plain data, and the state right after reset.
Levels, times, cue numbers and counts are numbers; a thing the manual numbers from 1 is held at an index from 0. A timer
is `none` while stopped and `some ms` while running, `ms` being the time it was last given (log 3). -/

namespace Sys2Proof.Machine

/-- What the supply and the RESET line let the part do (R178, R180). -/
inductive Power where
  /-- The part takes events. -/
  | running
  /-- The RESET line is held low: no event is taken and the working state is lost (R178). -/
  | held
  /-- The core supply is below its range: no event is taken, the working state stands in the retention memory (R180). The level of
  the RESET line is all that changes, and it counts at the recovery alone; elsewhere `held` says that the line is low. -/
  | dipped (resetLine : LineLevel)
deriving DecidableEq, Repr

/-- A plain timer: stopped, or running with its remaining time in ms. -/
abbrev Timer := Option Nat

/-! ## Link interface (chapter 10) -/

/-- Link state (R159). -/
inductive LinkState where
  | silent | live
deriving DecidableEq, Repr

/-- A port's receiver (R155): HUNTING, or COLLECTING with the bytes taken after the start byte. -/
inductive Receiver where
  | hunting
  | collecting (taken : List Byte)
deriving DecidableEq, Repr

/-- What RESTARTED carries (R167). -/
inductive RestartKind where
  | cold | dip
deriving DecidableEq, Repr

/-- A link's notice set (R167): each kind held at most once; LINE_EDGE carries a set of line numbers and is present while
that set has a member; RESTARTED carries COLD or DIP. -/
structure Notices where
  failover : Bool := false
  leadTaken : Bool := false
  forced : Bool := false
  backLost : Bool := false
  followLapsed : Bool := false
  diverged : Bool := false
  lawFault : Bool := false
  lineEdge : Table 4 Bool := Table.fill 4 false
  overrun : Bool := false
  restarted : Option RestartKind := none
  saveLost : Bool := false
  bankLost : Bool := false
  rigLost : Bool := false
deriving DecidableEq, Repr

/-- One notice being raised (the table of R167). -/
inductive Notice where
  | failover | leadTaken | forced | backLost | followLapsed | diverged | lawFault
  | lineEdge (line : Fin 4)
  | overrun
  | restarted (kind : RestartKind)
  | saveLost | bankLost | rigLost
deriving DecidableEq, Repr

/-- The result codes (R171, R183). -/
inductive ResultCode where
  | ok | clamped | echo | notLead | role | badField | slotState | slotRunning | staleSlot | storeFull | countMismatch
  | listFull | heldByLine | nothingBack | parkFull | bankBusy | bankLive | cuesRunning | storeBusy | leadHeld
  | storeFault | unknownKind
deriving DecidableEq, Repr

/-- A reply (R158): kind byte, the request's tag, one result code and a body. -/
structure Reply where
  kind : Byte
  tag : Byte
  code : ResultCode
  body : List Byte
deriving DecidableEq, Repr

/-- How far the request at the head of a receive queue has come (R157). -/
inductive Head where
  /-- Not yet taken (also while the queue is empty). -/
  | untaken
  /-- Taken; its timed operation (a save or a rebuild) is running. -/
  | timed
  /-- Decided; its reply is being sent as one thing (log 26), and carries these notices (a STATUS reply, R168). -/
  | replying (reply : Reply) (carried : Notices)
deriving DecidableEq, Repr

/-- The mode of a fill record (R4); ABSORBING keeps the cue number that was absorbed. -/
inductive FillMode where
  | filling
  | absorbing (cue : Nat)
deriving DecidableEq, Repr

/-- A desk link's fill record (R4). -/
structure Fill where
  slot : Fin 32
  mode : FillMode
deriving DecidableEq, Repr

/-- One port of the link interface (R155 to R159), with the fill record of its link (R4; always absent for link C). -/
structure Port where
  state : LinkState
  monitor : Timer
  receiver : Receiver
  queue : List Request
  head : Head
  notices : Notices
  fill : Option Fill
deriving DecidableEq, Repr

/-- The three ports. -/
structure Ports where
  a : Port
  b : Port
  c : Port
deriving DecidableEq, Repr

/-! ## Cue store (chapter 1) -/

/-- A cue's follow as its header holds it: the follow slot and the follow time in tenths (R1). -/
structure CueFollow where
  slot : Fin 32
  tenths : Nat
deriving DecidableEq, Repr

/-- A cue header (R1): cue number, four times in tenths, optional follow, declared count. -/
structure CueHeader where
  cue : Nat
  upTime : Nat
  downTime : Nat
  upDelay : Nat
  downDelay : Nat
  follow : Option CueFollow
  declared : Nat
deriving DecidableEq, Repr

/-- A move (R2): channel, target level, optional own time and own delay in tenths. -/
structure Move where
  channel : Fin 512
  target : Nat
  ownTime : Option Nat
  ownDelay : Option Nat
deriving DecidableEq, Repr

/-- A cue slot: the fields of R1's table for each state. The received count of a FILLING slot is the number of its moves. -/
inductive Slot where
  | empty
  | filling (header : CueHeader) (moves : List Move) (filler : Desk)
  | ready (header : CueHeader) (moves : List Move)
  | running (header : CueHeader) (moves : List Move)
deriving DecidableEq, Repr

/-! ## Fade engine (chapters 2 to 4) -/

/-- Who made a start: a desk link, or a follow (R24, R20). -/
inductive StartedBy where
  | desk (d : Desk)
  | follow
deriving DecidableEq, Repr

/-- The kind of an echo record (R20). -/
inductive EchoKind where
  | cue | back
deriving DecidableEq, Repr

/-- A playback's echo record (R20, R34). -/
structure EchoRecord where
  kind : EchoKind
  cue : Nat
  link : StartedBy
deriving DecidableEq, Repr

/-- A restore pair (R63): a channel and the level it had. -/
structure RestorePair where
  channel : Fin 512
  level : Nat
deriving DecidableEq, Repr

/-- A restore entry (R63). -/
structure RestoreEntry where
  priorCue : Nat
  pairs : List RestorePair
deriving DecidableEq, Repr

/-- A playback record (R20), but for its back time and release time, which stand in the rig record (log 24). The restore stack lists
the top entry first. -/
structure Playback where
  currentCue : Nat
  held : Bool
  rate : Nat
  master : Nat
  echo : Option EchoRecord
  echoTimer : Timer
  stack : List RestoreEntry
deriving DecidableEq, Repr

/-- The phase of an owned channel record (R22). -/
inductive FadePhase where
  | waiting | fading
deriving DecidableEq, Repr

/-- What an owned channel record holds beside its level (R22): owner, start level, target level, D and T in pu. -/
structure Ownership where
  owner : Fin 16
  phase : FadePhase
  start : Nat
  target : Nat
  delay : Nat
  time : Nat
deriving DecidableEq, Repr

/-- A channel record (R22): IDLE when `own` is `none`. -/
structure ChannelRecord where
  level : Nat
  own : Option Ownership
deriving DecidableEq, Repr

/-- A pending follow of a run entry (R24): the follow slot and F in pu. -/
structure EntryFollow where
  slot : Fin 32
  due : Nat
deriving DecidableEq, Repr

/-- The kind of a run entry with the fields only that kind has (R24). A BACK entry holds its restore pairs (R64). -/
inductive EntryKind where
  | cue (slot : Fin 32) (cue : Nat) (follow : Option EntryFollow)
  | back (cue : Nat) (pairs : List RestorePair)
  | release
  | manual
deriving DecidableEq, Repr

/-- A run entry (R24). `birth` is the model's own: the number of starts made before this one, which tells an entry from a
later one that has taken the same entry number (log 5). -/
structure RunEntry where
  number : Fin 16
  birth : Nat
  kind : EntryKind
  playback : Fin 4
  clock : Nat
  owned : Nat
  startedBy : StartedBy
deriving DecidableEq, Repr

/-! ## Patch unit (chapter 5) -/

/-- A patch entry (R75). -/
structure PatchEntry where
  channel : Fin 512
  circuit : Fin 768
  percent : Nat
deriving DecidableEq, Repr

/-- A feeder of the live circuit map (R77). -/
structure Feeder where
  channel : Fin 512
  percent : Nat
deriving DecidableEq, Repr

/-- A rebuild in flight (R87): the bank being rebuilt, the link that awaits the reply to its BANK_SELECT, and whether it is
the rebuild of a cold start (R79), whose end takes the first frame starts and adds RESTARTED(COLD) (R179). -/
structure Rebuild where
  bank : Fin 4
  replyTo : Option Desk
  cold : Bool
deriving DecidableEq, Repr

/-! ## Rig record (chapters 6, 8, 9, 10, 11) -/

/-- A circuit profile (R95). -/
structure Profile where
  page : Nat
  index : Nat
  preheat : Nat
  topSet : Nat
deriving DecidableEq, Repr

/-- The seventeen points of a law (R98, R99). -/
abbrev Points := Table 17 Nat

/-- An entry of an override look (R131). -/
structure LookEntry where
  circuit : Fin 768
  level : Nat
deriving DecidableEq, Repr

/-- The content of an override look (R131): priority and entries; the desk-raised flag is working state. -/
structure Look where
  priority : Nat
  entries : List LookEntry
deriving DecidableEq, Repr

/-- Latch edges of a stage line (R123). -/
inductive LatchEdges where
  | noEdge | assertion | release | both
deriving DecidableEq, Repr

/-- Action of a stage line (R123). -/
inductive LineAction where
  | notify | freeze
  | look (n : Fin 4)
deriving DecidableEq, Repr

/-- The four settings of a stage line (R123). -/
structure LineSettings where
  active : LineLevel
  edges : LatchEdges
  action : LineAction
  debounce : Nat
deriving DecidableEq, Repr

/-- The link setup (R159, R161): the three silence limits in units of 100 ms, and failover. -/
structure LinkSetup where
  limitA : Nat
  limitB : Nat
  limitC : Nat
  failover : Bool
deriving DecidableEq, Repr

/-- The resolution of a rack line (R139). -/
inductive Resolution where
  | bits8 | bits16
deriving DecidableEq, Repr

/-- The rack setup of a line (R139): resolution and refresh period in ms. -/
structure RackSetup where
  resolution : Resolution
  period : Nat
deriving DecidableEq, Repr

/-- The playback setup (R20, R43): back time and release time in tenths. -/
structure PlaybackSetup where
  backTime : Nat
  releaseTime : Nat
deriving DecidableEq, Repr

/-- The rig record (R173). The user law count is the number of laws listed. -/
structure RigRecord where
  profiles : Table 768 Profile
  laws : List Points
  looks : Table 4 Look
  lines : Table 4 LineSettings
  linkSetup : LinkSetup
  racks : Table 3 RackSetup
  playbacks : Table 4 PlaybackSetup
  startBank : Fin 4
deriving DecidableEq, Repr

/-- The defaults of the rig record (R173). -/
def RigRecord.default : RigRecord where
  profiles := Table.fill 768 ⟨0, 0, 0, 65535⟩
  laws := []
  looks := Table.fill 4 ⟨0, []⟩
  lines := Table.fill 4 ⟨.low, .noEdge, .notify, 20⟩
  linkSetup := ⟨15, 15, 15, true⟩
  racks := Table.fill 3 ⟨.bits8, 25⟩
  playbacks := Table.fill 4 ⟨10, 20⟩
  startBank := 0

/-! ## Park unit (chapter 7) -/

/-- The phase of a flashing park (R111). -/
inductive FlashPhase where
  | a | b
deriving DecidableEq, Repr

/-- What a FLASH park holds beside level A (R111): level B, on and off time in units of 20 ms, phase and flash timer. -/
structure Flashing where
  levelB : Nat
  onTime : Nat
  offTime : Nat
  phase : FlashPhase
  timer : Nat
deriving DecidableEq, Repr

/-- A park entry (R111): STEADY when `flash` is `none`. -/
structure Park where
  circuit : Fin 768
  levelA : Nat
  flash : Option Flashing
  owner : Link
deriving DecidableEq, Repr

/-! ## Stage line unit (chapter 8) -/

/-- A running debounce timer (R123): the input level it is timing and its remaining time in ms. -/
structure Debounce where
  timing : LineLevel
  remaining : Nat
deriving DecidableEq, Repr

/-- The working state of a stage line (R123): the lead's level, the debounced state (`none` is UNSETTLED) and the debounce
timer. -/
structure StageLine where
  input : LineLevel
  debounced : Option LineLevel
  timer : Option Debounce
deriving DecidableEq, Repr

/-! ## Output merger and rack lines (chapter 9) -/

/-- The last frame of a rack line (R139): its output levels in circuit order and the resolution it was sent in. -/
structure Frame where
  resolution : Resolution
  levels : Table 256 Nat
deriving DecidableEq, Repr

/-- The working state of a rack line (R139). `sent` is the model's own: the bytes the line last put out as a frame, empty
while it holds its idle condition with none sent since the last stop (R147, R187, log 6). -/
structure RackLine where
  timer : Timer
  last : Option Frame
  lit : Nat
  sent : List Byte
deriving DecidableEq, Repr

/-! ## Store (chapter 11) -/

/-- A stored item (R173): VALID or INVALID, and a content, which nothing reads while the item is INVALID (log 16). -/
structure Item (α : Type) where
  valid : Bool
  content : α
deriving DecidableEq, Repr

/-- The class of a save (R174). -/
inductive SaveClass where
  | bank (n : Fin 4)
  | rig
deriving DecidableEq, Repr

/-- A save in flight (R175): its class and the link that sent the SAVE. -/
structure Saving where
  cls : SaveClass
  link : Desk
deriving DecidableEq, Repr

/-! ## The part -/

/-- The whole state of the PF768, with the queue of commands that wait. -/
structure State where
  power : Power
  ports : Ports
  lead : Option Desk
  slots : Table 32 Slot
  playbacks : Table 4 Playback
  channels : Table 4 (Table 512 ChannelRecord)
  runList : List RunEntry
  /-- The model's own: the number of starts made since the last cold start (log 5). -/
  births : Nat
  banks : Table 4 (List PatchEntry)
  liveBank : Fin 4
  liveMap : Table 768 (List Feeder)
  rebuild : Option Rebuild
  /-- The working rig record, one home for the settings the blocks share with it (R173). -/
  rig : RigRecord
  lawFaults : Nat
  parks : List Park
  stage : Table 4 StageLine
  deskRaised : Table 4 Bool
  grand : Nat
  blackout : Bool
  racks : Table 3 RackLine
  storedBanks : Table 4 (Item (List PatchEntry))
  storedRig : Item RigRecord
  saving : Option Saving
  /-- The commands that wait, first in, first out. -/
  pending : List Instr
deriving DecidableEq, Repr

/-- Why a step stops with a fault. The manual names no event that stops the part for good: there is none
(log 25). -/
inductive Fault where
deriving DecidableEq, Repr

/-- Why a command has no meaning. -/
inductive Refusal where
  /-- Raised by `exec` for a command that has no meaning yet; safe, since nothing is claimed of it. No arm raises it. -/
  | notModelled (mnemonic : String)
deriving DecidableEq, Repr

/-- An idle channel record at level 0 (R23). -/
def ChannelRecord.cold : ChannelRecord := ⟨0, none⟩

/-- A playback record after a cold start (R21). -/
def Playback.cold : Playback := ⟨0, false, 100, Config.full, none, none, []⟩

/-- A port after a cold start, with the notices the cold start adds (R159, R155, R5). -/
def Port.cold (notices : Notices) : Port := ⟨.silent, none, .hunting, [], .untaken, notices, none⟩

/-- A rack line after a cold start (R140). -/
def RackLine.cold : RackLine := ⟨none, none, 0, []⟩

/-- The part right after reset: the RESET line released, steps 1 to 5 of the cold start made (R179) from a store never written
(R173, log 14), every stage line lead at the HIGH its pull-up gives it (log 2). The rebuild of bank 1 is in flight, the live map
not yet made (log 18). -/
def State.reset : State where
  power := .running
  ports :=
    let port := Port.cold { bankLost := true, rigLost := true }
    ⟨port, port, port⟩
  lead := none
  slots := Table.fill 32 .empty
  playbacks := Table.fill 4 Playback.cold
  channels := Table.fill 4 (Table.fill 512 ChannelRecord.cold)
  runList := []
  births := 0
  banks := Table.fill 4 []
  liveBank := 0
  liveMap := Table.fill 768 []
  rebuild := some ⟨0, none, true⟩
  rig := RigRecord.default
  lawFaults := 0
  parks := []
  stage := Table.fill 4 ⟨.high, none, some ⟨.high, 20⟩⟩
  deskRaised := Table.fill 4 false
  grand := Config.full
  blackout := false
  racks := Table.fill 3 RackLine.cold
  storedBanks := Table.fill 4 ⟨false, []⟩
  storedRig := ⟨false, RigRecord.default⟩
  saving := none
  pending := []

end Sys2Proof.Machine
end

