-- ==== Sys2Proof/Machine/Ops.lean ====
section
/-! DEFINITION. The named operations over the state that the blocks share: reading and writing one port, slot, playback or
channel record, raising a notice, the role of a link, and the life of a request in its receive queue: arrival, taking,
answer (R156 to R158, R162, R167, R168). -/

namespace Sys2Proof.Machine

/-! ## Links -/

/-- The desk at the far end of a link; link C leads to the remote. -/
def deskOf : Link → Option Desk
  | .a => some .a
  | .b => some .b
  | .c => none

/-- The link of a desk. -/
def linkOf : Desk → Link
  | .a => .a
  | .b => .b

/-- The other desk. -/
def otherDesk : Desk → Desk
  | .a => .b
  | .b => .a

/-- The port of a link. -/
def Ports.get (p : Ports) : Link → Port
  | .a => p.a
  | .b => p.b
  | .c => p.c

/-- The ports with one port replaced. -/
def Ports.set (p : Ports) (l : Link) (q : Port) : Ports :=
  match l with
  | .a => { p with a := q }
  | .b => { p with b := q }
  | .c => { p with c := q }

/-- The same change made to all three ports. -/
def Ports.map (f : Port → Port) (p : Ports) : Ports := ⟨f p.a, f p.b, f p.c⟩

/-! ## Parts of the state -/

def State.port (s : State) (l : Link) : Port := s.ports.get l
def State.setPort (s : State) (l : Link) (p : Port) : State := { s with ports := s.ports.set l p }
def State.modPort (s : State) (l : Link) (f : Port → Port) : State := s.setPort l (f (s.port l))
def State.slot (s : State) (t : Fin 32) : Slot := s.slots.get t
def State.setSlot (s : State) (t : Fin 32) (x : Slot) : State := { s with slots := s.slots.set t x }
def State.playback (s : State) (p : Fin 4) : Playback := s.playbacks.get p
def State.setPlayback (s : State) (p : Fin 4) (x : Playback) : State := { s with playbacks := s.playbacks.set p x }
def State.modPlayback (s : State) (p : Fin 4) (f : Playback → Playback) : State := s.setPlayback p (f (s.playback p))
def State.channel (s : State) (p : Fin 4) (c : Fin 512) : ChannelRecord := (s.channels.get p).get c
def State.setChannel (s : State) (p : Fin 4) (c : Fin 512) (r : ChannelRecord) : State :=
  { s with channels := s.channels.set p ((s.channels.get p).set c r) }
def State.setRunList (s : State) (l : List RunEntry) : State := { s with runList := l }
def State.setRig (s : State) (r : RigRecord) : State := { s with rig := r }

/-! ## Notices (R167) -/

/-- A notice added to a notice set, folding into the same kind already present; for RESTARTED, COLD stands over DIP. -/
def Notices.add (n : Notice) (x : Notices) : Notices :=
  match n with
  | .failover => { x with failover := true }
  | .leadTaken => { x with leadTaken := true }
  | .forced => { x with forced := true }
  | .backLost => { x with backLost := true }
  | .followLapsed => { x with followLapsed := true }
  | .diverged => { x with diverged := true }
  | .lawFault => { x with lawFault := true }
  | .lineEdge k => { x with lineEdge := x.lineEdge.set k true }
  | .overrun => { x with overrun := true }
  | .restarted .cold => { x with restarted := some .cold }
  | .restarted .dip => { x with restarted := if x.restarted = some .cold then some .cold else some .dip }
  | .saveLost => { x with saveLost := true }
  | .bankLost => { x with bankLost := true }
  | .rigLost => { x with rigLost := true }

/-- The notice set once the notices a STATUS reply carried have left it (R168): of LINE_EDGE only the line numbers carried,
of RESTARTED only the kind carried (log 13). -/
def Notices.without (x carried : Notices) : Notices where
  failover := x.failover && !carried.failover
  leadTaken := x.leadTaken && !carried.leadTaken
  forced := x.forced && !carried.forced
  backLost := x.backLost && !carried.backLost
  followLapsed := x.followLapsed && !carried.followLapsed
  diverged := x.diverged && !carried.diverged
  lawFault := x.lawFault && !carried.lawFault
  lineEdge := Table.tabulate fun k => x.lineEdge.get k && !carried.lineEdge.get k
  overrun := x.overrun && !carried.overrun
  restarted := if x.restarted = carried.restarted then none else x.restarted
  saveLost := x.saveLost && !carried.saveLost
  bankLost := x.bankLost && !carried.bankLost
  rigLost := x.rigLost && !carried.rigLost

/-- A notice added to one port's set. -/
def Port.notify (n : Notice) (p : Port) : Port := { p with notices := p.notices.add n }

/-- A notice added to one link's set. -/
def State.notify (s : State) (l : Link) (n : Notice) : State := s.modPort l (Port.notify n)

/-- A notice added to the sets of links A and B. -/
def State.notifyDesks (s : State) (n : Notice) : State := (s.notify .a n).notify .b n

/-- A notice added to the sets of links A, B and C. -/
def State.notifyAll (s : State) (n : Notice) : State := { s with ports := s.ports.map (Port.notify n) }

/-! ## Roles (R162) -/

/-- The standing of a link when one of its requests is decided. -/
inductive Role where
  | lead | shadow | remote
deriving DecidableEq, Repr

/-- The role of a link, derived from the lead at each asking (R162). -/
def State.role (s : State) (l : Link) : Role :=
  match deskOf l with
  | none => .remote
  | some d => if s.lead = some d then .lead else .shadow

/-! ## Silence limits (R159) -/

/-- The silence limit of a link, in units of 100 ms. -/
def State.limit (s : State) : Link → Nat
  | .a => s.rig.linkSetup.limitA
  | .b => s.rig.linkSetup.limitB
  | .c => s.rig.linkSetup.limitC

/-- The run of a link's silence monitor from its full limit, in ms. -/
def State.limitMs (s : State) (l : Link) : Nat := s.limit l * Config.silenceUnitMs

/-! ## The life of a request (R156, R157) -/

/-- A valid telegram's effect on its port (R156): the link becomes LIVE, its monitor restarts at the full limit, and the
request joins the queue, or is discarded with OVERRUN when 4 requests are pending. -/
def State.arrive (s : State) (l : Link) (r : Request) : State :=
  s.modPort l fun p =>
    let p := { p with state := .live, monitor := some (s.limitMs l) }
    if p.queue.length < Config.queueDepth then { p with queue := p.queue ++ [r] } else p.notify .overrun

/-- A telegram received whole: the receiver hunts again with no bytes held, and the telegram is handed on (R155, R156). -/
def State.receive (s : State) (l : Link) (r : Request) : State :=
  (s.modPort l fun p => { p with receiver := .hunting }).arrive l r

/-- The request at the head of a port's queue that is still to be taken. -/
def Port.next? (p : Port) : Option Request :=
  match p.head with
  | .untaken => p.queue.head?
  | _ => none

/-- The kind byte of the reply to a request (R158): 0x80 added, or unchanged for a kind of 0x80 or above. -/
def replyKind (k : Byte) : Byte := if k.toNat < 128 then k + 0x80 else k

/-- What the owning block decides of a request: a reply to be sent at once (with the notices it carries, if it is a STATUS
reply), or a timed operation that holds the head of the queue until it ends (R157). -/
inductive Verdict where
  | reply (code : ResultCode) (body : List Byte) (carried : Notices) (s : State)
  | hold (s : State)
deriving DecidableEq, Repr

/-- A reply with no body. -/
def answer (code : ResultCode) (s : State) : Verdict := .reply code [] {} s

/-- OK, or CLAMPED where a value was held to its range (R171). -/
def okOr (clamped : Bool) : ResultCode := if clamped then .clamped else .ok

/-- The first of a rule's checks that holds gives its result code, and the checks after it are not made (R171). -/
def refuseFirst (checks : List (Bool × ResultCode)) (s : State) (taken : Verdict) : Verdict :=
  match checks.find? (·.1) with
  | some c => answer c.2 s
  | none => taken

/-- The head of link `l`'s queue answered: the reply is being sent (R158). -/
def State.answerHead (s : State) (l : Link) (code : ResultCode) (body : List Byte) (carried : Notices) : State :=
  s.modPort l fun p =>
    match p.queue with
    | [] => p
    | r :: _ => { p with head := .replying ⟨replyKind r.kind, r.tag, code, body⟩ carried }

/-- The head of link `l`'s queue brought to what its block decided. -/
def settle (l : Link) : Verdict → State
  | .reply code body carried s => s.answerHead l code body carried
  | .hold s => s.modPort l fun p => { p with head := .timed }

/-- The taking of the request at the head of link `l`'s queue: the port asks for the role as it stands and hands both to the
owning block (R157). -/
def takeHead (l : Link) (decision : Role → State → Verdict) (s : State) : State := settle l (decision (s.role l) s)

/-- What happens only while the part runs: held in reset or stopped by a dip it takes no events (R178, R180). -/
def whileRunning (s : State) (t : State) : State := if s.power = .running then t else s

/-- A request row (log 7). If its request stands untaken at the head of its link's queue, it is taken. Otherwise its telegram
arrives (R156), and it is taken at once if no other request was pending. -/
def requestRow (l : Link) (r : Request) (decision : Role → State → Verdict) (s : State) : State :=
  whileRunning s <|
    if (s.port l).next? = some r then takeHead l decision s
    else if (s.port l).queue = [] then takeHead l decision (s.receive l r)
    else s.receive l r

end Sys2Proof.Machine
end

