-- ==== Sys2Proof/Machine/Flags.lean ====
section
/-! DEFINITION. The conditions the blocks read from each other's state: asserted lines and the freeze, raised looks, undefined
laws, a rebuild or a save in flight, and the free counts of the two pools. None is stored; each is derived at its asking. -/

namespace Sys2Proof.Machine

/-- A line is asserted while its debounced state equals its active level; an UNSETTLED line is not (R123). -/
def State.asserted (s : State) (n : Fin 4) : Bool := (s.stage.get n).debounced = some (s.rig.lines.get n).active

/-- One or more lines whose action is FREEZE are asserted (R128). -/
def State.frozen (s : State) : Bool :=
  (List.ofFn fun n : Fin 4 => n).any fun n => s.asserted n && (s.rig.lines.get n).action = .freeze

/-- A look is raised while its desk flag is set or an asserted line names it (R133). -/
def State.raised (s : State) (k : Fin 4) : Bool :=
  s.deskRaised.get k ||
    (List.ofFn fun n : Fin 4 => n).any fun n => s.asserted n && (s.rig.lines.get n).action = .look k

/-- A playback's clock runs when its desk-hold flag is clear and no FREEZE line is asserted (R31). -/
def State.clockRuns (s : State) (p : Fin 4) : Bool := !(s.playback p).held && !s.frozen

/-- The rebuild flag (R77). -/
def State.rebuilding (s : State) : Bool := s.rebuild.isSome

/-- A rebuild of bank `n` is in flight. -/
def State.rebuildingBank (s : State) (n : Fin 4) : Bool := (s.rebuild.map (·.bank)) = some n

/-- A save of class RIG is in flight (R175). -/
def State.savingRig (s : State) : Bool := (s.saving.map (·.cls)) = some .rig

/-- A save of class BANK for bank `n` is in flight (R175). -/
def State.savingBank (s : State) (n : Fin 4) : Bool := (s.saving.map (·.cls)) = some (.bank n)

/-- The move entries a slot reserves: its declared count unless it is EMPTY (R3). -/
def Slot.reserved : Slot → Nat
  | .empty => 0
  | .filling h _ _ => h.declared
  | .ready h _ => h.declared
  | .running h _ => h.declared

/-- The move entries reserved by all slots (R3). -/
def State.reservedMoves (s : State) : Nat := (s.slots.cells.map Slot.reserved).sum

/-- The free move entries (R3). -/
def State.freeMoves (s : State) : Nat := Config.moveStore - s.reservedMoves

/-- The pairs a stack holds (R64). -/
def stackPairs (st : List RestoreEntry) : Nat := (st.map (·.pairs.length)).sum

/-- The pairs a run entry holds: those of a BACK entry (R64). -/
def EntryKind.pairCount : EntryKind → Nat
  | .back _ pairs => pairs.length
  | _ => 0

/-- The restore pairs held by all stacks and all BACK entries (R64). -/
def State.heldPairs (s : State) : Nat :=
  (s.playbacks.cells.map fun p => stackPairs p.stack).sum + (s.runList.map (·.kind.pairCount)).sum

/-- The free restore pairs (R64). -/
def State.freePairs (s : State) : Nat := Config.restorePairs - s.heldPairs

/-- A law named by page and index is undefined: page 0 index 5 to 7, or page 1 at or above the user law count (R101). -/
def undefinedLaw (laws : List Points) (p : Profile) : Bool :=
  if p.page = 0 then 5 ≤ p.index else laws.length ≤ p.index

/-- The law-fault count of a rig record (R101). -/
def countLawFaults (r : RigRecord) : Nat := r.profiles.count (undefinedLaw r.laws)

end Sys2Proof.Machine
end

