-- ==== Sys2Proof/Decode.lean ====
section
/-! DEFINITION. The request kinds of R184 and the two maps between a request and its row: `rowOf` names the row that takes a
pending request, `Instr.request?` the request a row stands for. No row of the opcode table gives bits, so
`decodeTableWord` spells no command. -/

namespace Sys2Proof

/-! The value of byte 3 of a request, for each kind (R184). -/

def kindStatus : Byte := 0x01
def kindRead : Byte := 0x02
def kindTakeLead : Byte := 0x03
def kindYieldLead : Byte := 0x04
def kindLinkSetup : Byte := 0x05
def kindCueOpen : Byte := 0x20
def kindCueMoves : Byte := 0x21
def kindCueClose : Byte := 0x22
def kindCueDrop : Byte := 0x23
def kindGo : Byte := 0x30
def kindBack : Byte := 0x31
def kindManual : Byte := 0x32
def kindRelease : Byte := 0x33
def kindHold : Byte := 0x34
def kindResume : Byte := 0x35
def kindRate : Byte := 0x36
def kindPbLevel : Byte := 0x37
def kindPlaybackSetup : Byte := 0x38
def kindPatchSet : Byte := 0x40
def kindBankClear : Byte := 0x41
def kindBankCopy : Byte := 0x42
def kindBankSelect : Byte := 0x43
def kindStartBank : Byte := 0x44
def kindProfileSet : Byte := 0x50
def kindLawLoad : Byte := 0x51
def kindPark : Byte := 0x60
def kindFlash : Byte := 0x61
def kindNudge : Byte := 0x62
def kindUnpark : Byte := 0x63
def kindLineSetup : Byte := 0x70
def kindLookSet : Byte := 0x71
def kindLookRaise : Byte := 0x72
def kindLookLower : Byte := 0x73
def kindGrand : Byte := 0x74
def kindRackSetup : Byte := 0x75
def kindSave : Byte := 0x76

/-- The row that takes a pending request of link `l`: the row of its kind, and UNKNOWN_KIND for a kind that R184's
table does not list. -/
def rowOf (l : Link) (r : Request) : Instr :=
  if r.kind = kindStatus then .status l r.tag r.body
  else if r.kind = kindRead then .read l r.tag r.body
  else if r.kind = kindTakeLead then .takeLead l r.tag r.body
  else if r.kind = kindYieldLead then .yieldLead l r.tag r.body
  else if r.kind = kindLinkSetup then .linkSetup l r.tag r.body
  else if r.kind = kindCueOpen then .cueOpen l r.tag r.body
  else if r.kind = kindCueMoves then .cueMoves l r.tag r.body
  else if r.kind = kindCueClose then .cueClose l r.tag r.body
  else if r.kind = kindCueDrop then .cueDrop l r.tag r.body
  else if r.kind = kindGo then .go l r.tag r.body
  else if r.kind = kindBack then .back l r.tag r.body
  else if r.kind = kindManual then .manual l r.tag r.body
  else if r.kind = kindRelease then .release l r.tag r.body
  else if r.kind = kindHold then .hold l r.tag r.body
  else if r.kind = kindResume then .resume l r.tag r.body
  else if r.kind = kindRate then .rate l r.tag r.body
  else if r.kind = kindPbLevel then .pbLevel l r.tag r.body
  else if r.kind = kindPlaybackSetup then .playbackSetup l r.tag r.body
  else if r.kind = kindPatchSet then .patchSet l r.tag r.body
  else if r.kind = kindBankClear then .bankClear l r.tag r.body
  else if r.kind = kindBankCopy then .bankCopy l r.tag r.body
  else if r.kind = kindBankSelect then .bankSelect l r.tag r.body
  else if r.kind = kindStartBank then .startBank l r.tag r.body
  else if r.kind = kindProfileSet then .profileSet l r.tag r.body
  else if r.kind = kindLawLoad then .lawLoad l r.tag r.body
  else if r.kind = kindPark then .park l r.tag r.body
  else if r.kind = kindFlash then .flash l r.tag r.body
  else if r.kind = kindNudge then .nudge l r.tag r.body
  else if r.kind = kindUnpark then .unpark l r.tag r.body
  else if r.kind = kindLineSetup then .lineSetup l r.tag r.body
  else if r.kind = kindLookSet then .lookSet l r.tag r.body
  else if r.kind = kindLookRaise then .lookRaise l r.tag r.body
  else if r.kind = kindLookLower then .lookLower l r.tag r.body
  else if r.kind = kindGrand then .grand l r.tag r.body
  else if r.kind = kindRackSetup then .rackSetup l r.tag r.body
  else if r.kind = kindSave then .save l r.tag r.body
  else .unknownKind l r.kind r.tag r.body

/-- Whether a kind is one of R184's table. -/
def knownKind (k : Byte) : Bool :=
  [kindStatus, kindRead, kindTakeLead, kindYieldLead, kindLinkSetup, kindCueOpen,
   kindCueMoves, kindCueClose, kindCueDrop, kindGo, kindBack, kindManual,
   kindRelease, kindHold, kindResume, kindRate, kindPbLevel, kindPlaybackSetup,
   kindPatchSet, kindBankClear, kindBankCopy, kindBankSelect, kindStartBank, kindProfileSet,
   kindLawLoad, kindPark, kindFlash, kindNudge, kindUnpark, kindLineSetup,
   kindLookSet, kindLookRaise, kindLookLower, kindGrand, kindRackSetup, kindSave].contains k

/-- The request a request row stands for, with its link; `none` for an event row. -/
def Instr.request? : Instr → Option (Link × Request)
  | .unknownKind l k t b => some (l, ⟨k, t, b⟩)
  | .status l t b => some (l, ⟨kindStatus, t, b⟩)
  | .read l t b => some (l, ⟨kindRead, t, b⟩)
  | .takeLead l t b => some (l, ⟨kindTakeLead, t, b⟩)
  | .yieldLead l t b => some (l, ⟨kindYieldLead, t, b⟩)
  | .linkSetup l t b => some (l, ⟨kindLinkSetup, t, b⟩)
  | .cueOpen l t b => some (l, ⟨kindCueOpen, t, b⟩)
  | .cueMoves l t b => some (l, ⟨kindCueMoves, t, b⟩)
  | .cueClose l t b => some (l, ⟨kindCueClose, t, b⟩)
  | .cueDrop l t b => some (l, ⟨kindCueDrop, t, b⟩)
  | .go l t b => some (l, ⟨kindGo, t, b⟩)
  | .back l t b => some (l, ⟨kindBack, t, b⟩)
  | .manual l t b => some (l, ⟨kindManual, t, b⟩)
  | .release l t b => some (l, ⟨kindRelease, t, b⟩)
  | .hold l t b => some (l, ⟨kindHold, t, b⟩)
  | .resume l t b => some (l, ⟨kindResume, t, b⟩)
  | .rate l t b => some (l, ⟨kindRate, t, b⟩)
  | .pbLevel l t b => some (l, ⟨kindPbLevel, t, b⟩)
  | .playbackSetup l t b => some (l, ⟨kindPlaybackSetup, t, b⟩)
  | .patchSet l t b => some (l, ⟨kindPatchSet, t, b⟩)
  | .bankClear l t b => some (l, ⟨kindBankClear, t, b⟩)
  | .bankCopy l t b => some (l, ⟨kindBankCopy, t, b⟩)
  | .bankSelect l t b => some (l, ⟨kindBankSelect, t, b⟩)
  | .startBank l t b => some (l, ⟨kindStartBank, t, b⟩)
  | .profileSet l t b => some (l, ⟨kindProfileSet, t, b⟩)
  | .lawLoad l t b => some (l, ⟨kindLawLoad, t, b⟩)
  | .park l t b => some (l, ⟨kindPark, t, b⟩)
  | .flash l t b => some (l, ⟨kindFlash, t, b⟩)
  | .nudge l t b => some (l, ⟨kindNudge, t, b⟩)
  | .unpark l t b => some (l, ⟨kindUnpark, t, b⟩)
  | .lineSetup l t b => some (l, ⟨kindLineSetup, t, b⟩)
  | .lookSet l t b => some (l, ⟨kindLookSet, t, b⟩)
  | .lookRaise l t b => some (l, ⟨kindLookRaise, t, b⟩)
  | .lookLower l t b => some (l, ⟨kindLookLower, t, b⟩)
  | .grand l t b => some (l, ⟨kindGrand, t, b⟩)
  | .rackSetup l t b => some (l, ⟨kindRackSetup, t, b⟩)
  | .save l t b => some (l, ⟨kindSave, t, b⟩)
  | .validTelegram _ _ _ _ => none
  | .badTelegram _ => none
  | .interByteGap _ => none
  | .replySent _ => none
  | .fadeTick => none
  | .followDue _ => none
  | .echoTimerExpiry _ => none
  | .rebuildEnd => none
  | .flashTimerExpiry _ => none
  | .lineInputChange _ _ => none
  | .debounceTimerExpiry _ => none
  | .frameStart _ => none
  | .saveEnd => none
  | .saveWriteFailure => none
  | .silenceMonitorExpiry _ => none
  | .resetAssert => none
  | .coldStart => none
  | .supplyDip => none
  | .dipRestart => none
  | .linkByteReceived _ _ => none

/-- The command that a word spells by the table's bits. No row of spec/opcode_table.json gives bits: none (log 20). -/
def decodeTableWord (_nbits _w : Nat) : Option Instr := none

end Sys2Proof
end

