-- ==== Sys2Proof/Machine/Operands.lean ====
section
/-! DEFINITION. The operand forms: the byte order of the links (high byte first), the request bodies of R184 and the numbers
they hold. A reader of a body answers `none` exactly when the body does not have the size its kind calls for (R158). -/

namespace Sys2Proof.Machine

/-! ## Bytes and numbers -/

/-- A two-byte field, high byte first (R184). -/
def be16 (hi lo : Byte) : Nat := hi.toNat * 256 + lo.toNat

/-- The low eight bits of a number. -/
def byteOf (n : Nat) : Byte := BitVec.ofNat 8 n

/-- A number as a two-byte field, high byte first. -/
def bytes16 (n : Nat) : List Byte := [byteOf (n / 256), byteOf n]

/-- A number as a four-byte field, high byte first. -/
def bytes32 (n : Nat) : List Byte := [byteOf (n / 16777216), byteOf (n / 65536), byteOf (n / 256), byteOf n]

/-- An optional two-byte time or delay: absent when it holds 0xFFFF (R184). -/
def optionalTenths (hi lo : Byte) : Option Nat := if be16 hi lo = 65535 then none else some (be16 hi lo)

/-- A time in tenths held to 0..9999 (R48, R184). -/
def clampTenths (n : Nat) : Nat := min n Config.lastTenths

/-- Whether a time in tenths lies above 9999 and is clamped. -/
def tenthsOver (n : Nat) : Bool := Config.lastTenths < n

/-- `n` held to `lo..hi` (Conventions: the nearest value inside the range). -/
def clampTo (lo hi n : Nat) : Nat := max lo (min hi n)

/-- An item numbered 1..n, at its index from 0; `none` for 0 and above n. -/
def numbered (n k : Nat) : Option (Fin n) := if h : 0 < k ∧ k ≤ n then some ⟨k - 1, by omega⟩ else none

/-- An item numbered 0..n-1; `none` above. -/
def indexed (n k : Nat) : Option (Fin n) := if h : k < n then some ⟨k, h⟩ else none

/-- Pairs of two-byte fields: the list a body of `4 * n` further bytes holds. -/
def wordPairs : List Byte → List (Nat × Nat)
  | a :: b :: c :: d :: rest => (be16 a b, be16 c d) :: wordPairs rest
  | _ => []

/-- Two-byte fields in a row. -/
def words : List Byte → List Nat
  | a :: b :: rest => be16 a b :: words rest
  | _ => []

/-! ## Bodies -/

/-- A body of no bytes. -/
def readNothing : List Byte → Option Unit
  | [] => some ()
  | _ => none

/-- A body of one byte: a slot, playback, bank, look or flag. -/
def readByte : List Byte → Option Nat
  | [x] => some x.toNat
  | _ => none

/-- A body of two bytes. -/
def readBytes2 : List Byte → Option (Nat × Nat)
  | [x, y] => some (x.toNat, y.toNat)
  | _ => none

/-- A body of three bytes. -/
def readBytes3 : List Byte → Option (Nat × Nat × Nat)
  | [x, y, z] => some (x.toNat, y.toNat, z.toNat)
  | _ => none

/-- A byte and a two-byte field: RATE, PB_LEVEL. -/
def readByteWord : List Byte → Option (Nat × Nat)
  | [x, h, l] => some (x.toNat, be16 h l)
  | _ => none

/-- A two-byte field and a byte: NUDGE, GRAND. -/
def readWordByte : List Byte → Option (Nat × Byte)
  | [h, l, x] => some (be16 h l, x)
  | _ => none

/-- A two-byte field: UNPARK. -/
def readWord : List Byte → Option Nat
  | [h, l] => some (be16 h l)
  | _ => none

/-- Two two-byte fields: PARK. -/
def readWords2 : List Byte → Option (Nat × Nat)
  | [a, b, c, d] => some (be16 a b, be16 c d)
  | _ => none

/-- LINK_SETUP: the three silence limits and the failover byte. -/
structure LinkSetupFields where
  limitA : Nat
  limitB : Nat
  limitC : Nat
  failover : Nat
deriving DecidableEq, Repr

def readLinkSetup : List Byte → Option LinkSetupFields
  | [a, b, c, f] => some ⟨a.toNat, b.toNat, c.toNat, f.toNat⟩
  | _ => none

/-- CUE_OPEN (R184); the follow is absent when its slot byte holds 0xFF. -/
structure CueOpenFields where
  slot : Nat
  cue : Nat
  upTime : Nat
  downTime : Nat
  upDelay : Nat
  downDelay : Nat
  follow : Option (Nat × Nat)
  declared : Nat
deriving DecidableEq, Repr

def readCueOpen : List Byte → Option CueOpenFields
  | [s, c1, c0, u1, u0, d1, d0, x1, x0, y1, y0, fs, f1, f0, n1, n0] =>
    some { slot := s.toNat, cue := be16 c1 c0, upTime := be16 u1 u0, downTime := be16 d1 d0,
           upDelay := be16 x1 x0, downDelay := be16 y1 y0,
           follow := if fs = 0xFF then none else some (fs.toNat, be16 f1 f0), declared := be16 n1 n0 }
  | _ => none

/-- One move of CUE_MOVES (R184), its channel not yet checked. -/
structure MoveFields where
  channel : Nat
  target : Nat
  ownTime : Option Nat
  ownDelay : Option Nat
deriving DecidableEq, Repr

/-- The moves that bytes 2 onward of CUE_MOVES hold. -/
def readMoves : List Byte → List MoveFields
  | c1 :: c0 :: t1 :: t0 :: o1 :: o0 :: d1 :: d0 :: rest =>
    ⟨be16 c1 c0, be16 t1 t0, optionalTenths o1 o0, optionalTenths d1 d0⟩ :: readMoves rest
  | _ => []

/-- CUE_MOVES: slot and moves, the body being 2 + 8n bytes. -/
def readCueMoves : List Byte → Option (Nat × List MoveFields)
  | s :: n :: rest => if rest.length = 8 * n.toNat then some (s.toNat, readMoves rest) else none
  | _ => none

/-- GO: playback, slot, cue number. -/
structure GoFields where
  playback : Nat
  slot : Nat
  cue : Nat
deriving DecidableEq, Repr

def readGo : List Byte → Option GoFields
  | [p, s, c1, c0] => some ⟨p.toNat, s.toNat, be16 c1 c0⟩
  | _ => none

/-- MANUAL: playback, time and pairs, the body being 4 + 4n bytes. -/
structure ManualFields where
  playback : Nat
  time : Nat
  pairs : List (Nat × Nat)
deriving DecidableEq, Repr

def readManual : List Byte → Option ManualFields
  | p :: t1 :: t0 :: n :: rest =>
    if rest.length = 4 * n.toNat then some ⟨p.toNat, be16 t1 t0, wordPairs rest⟩ else none
  | _ => none

/-- PLAYBACK_SETUP: playback, back time, release time. -/
def readPlaybackSetup : List Byte → Option (Nat × Nat × Nat)
  | [p, b1, b0, r1, r0] => some (p.toNat, be16 b1 b0, be16 r1 r0)
  | _ => none

/-- PATCH_SET: bank, channel, circuit, percent. -/
structure PatchFields where
  bank : Nat
  channel : Nat
  circuit : Nat
  percent : Nat
deriving DecidableEq, Repr

def readPatchSet : List Byte → Option PatchFields
  | [b, c1, c0, d1, d0, p] => some ⟨b.toNat, be16 c1 c0, be16 d1 d0, p.toNat⟩
  | _ => none

/-- PROFILE_SET: circuit and the four fields of the profile. -/
structure ProfileFields where
  circuit : Nat
  page : Nat
  index : Nat
  preheat : Nat
  topSet : Nat
deriving DecidableEq, Repr

def readProfileSet : List Byte → Option ProfileFields
  | [c1, c0, p, i, h1, h0, t1, t0] => some ⟨be16 c1 c0, p.toNat, i.toNat, be16 h1 h0, be16 t1 t0⟩
  | _ => none

/-- LAW_LOAD: law index and seventeen points. -/
def readLawLoad : List Byte → Option (Nat × Table 17 Nat)
  | i :: rest => if h : (words rest).length = 17 ∧ rest.length = 34 then some (i.toNat, ⟨words rest, h.1⟩) else none
  | _ => none

/-- FLASH: circuit, level A, level B, on time, off time. -/
structure FlashFields where
  circuit : Nat
  levelA : Nat
  levelB : Nat
  onTime : Nat
  offTime : Nat
deriving DecidableEq, Repr

def readFlash : List Byte → Option FlashFields
  | [c1, c0, a1, a0, b1, b0, on, off] => some ⟨be16 c1 c0, be16 a1 a0, be16 b1 b0, on.toNat, off.toNat⟩
  | _ => none

/-- LINE_SETUP: line, active level, latch edges, action, look number, debounce. -/
structure LineFields where
  line : Nat
  active : Nat
  edges : Nat
  action : Nat
  look : Nat
  debounce : Nat
deriving DecidableEq, Repr

def readLineSetup : List Byte → Option LineFields
  | [n, a, e, x, k, d] => some ⟨n.toNat, a.toNat, e.toNat, x.toNat, k.toNat, d.toNat⟩
  | _ => none

/-- LOOK_SET: look, priority and entries, the body being 3 + 4n bytes. -/
structure LookFields where
  look : Nat
  priority : Nat
  entries : List (Nat × Nat)
deriving DecidableEq, Repr

def readLookSet : List Byte → Option LookFields
  | k :: p :: n :: rest =>
    if rest.length = 4 * n.toNat then some ⟨k.toNat, p.toNat, wordPairs rest⟩ else none
  | _ => none

/-- READ: page kind, selector, first index. -/
structure ReadFields where
  page : Nat
  selector : Nat
  first : Nat
deriving DecidableEq, Repr

def readRead : List Byte → Option ReadFields
  | [p, s, f1, f0] => some ⟨p.toNat, s.toNat, be16 f1 f0⟩
  | _ => none

end Sys2Proof.Machine
end

