-- ==== Sys2Proof/Machine/Fade.lean ====
section
/-! DEFINITION. The fade engine's shared operations (chapters 2 to 4): the level of a channel at a clock value, takeover,
completion, the leaving of a run entry, forced completion, the restore push, and the starts with their chain of follows. -/

namespace Sys2Proof.Machine

/-! ## Fade arithmetic (R47 to R57) -/

/-- The level of a FADING record at clock `e` (R52): the start level moved toward the target by the step
`Δ × (e − D) / T`, rounded down. -/
def fadeLevel (o : Ownership) (e : Nat) : Nat :=
  if o.start ≤ o.target then o.start + (o.target - o.start) * (e - o.delay) / o.time
  else o.start - (o.start - o.target) * (e - o.delay) / o.time

/-- An owned record evaluated at clock `e` (R52, R29): WAITING at the start level before D, FADING while the clock lies within
the time, then IDLE at exactly the target level. -/
def evalOwned (o : Ownership) (e : Nat) : ChannelRecord :=
  if e < o.delay then ⟨o.start, some { o with phase := .waiting }⟩
  else if e < o.delay + o.time then ⟨fadeLevel o e, some { o with phase := .fading }⟩
  else ⟨o.target, none⟩

/-- A channel record evaluated for entry `n` at clock `e`: a record that `n` does not own is left as it is. -/
def evalRecord (n : Fin 16) (e : Nat) (r : ChannelRecord) : ChannelRecord :=
  match r.own with
  | some o => if o.owner = n then evalOwned o e else r
  | none => r

/-- Whether entry `n` owns a record. -/
def ownedBy (n : Fin 16) (r : ChannelRecord) : Bool := r.own.any (·.owner = n)

/-- Whether a record of entry `n` completes at clock `e` (R29, R55). -/
def completesAt (n : Fin 16) (e : Nat) (r : ChannelRecord) : Bool :=
  r.own.any fun o => o.owner = n && o.delay + o.time ≤ e

/-- A record of entry `n` gone at once to its target and IDLE (R30). -/
def forceRecord (n : Fin 16) (r : ChannelRecord) : ChannelRecord :=
  match r.own with
  | some o => if o.owner = n then ⟨o.target, none⟩ else r
  | none => r

/-! ## Run entries (R24 to R26) -/

/-- The run entry with a given entry number. -/
def State.entry? (s : State) (n : Fin 16) : Option RunEntry := s.runList.find? fun e => e.number = n

/-- The run entry of a given birth: the one entry that no later start can stand for. -/
def State.born? (s : State) (b : Nat) : Option RunEntry := s.runList.find? fun e => e.birth = b

/-- The run list with `f` applied to the entry numbered `n`. -/
def State.modEntry (s : State) (n : Fin 16) (f : RunEntry → RunEntry) : State :=
  s.setRunList (s.runList.map fun e => if e.number = n then f e else e)

/-- The pending follow of an entry (R24). -/
def RunEntry.follow (e : RunEntry) : Option EntryFollow :=
  match e.kind with
  | .cue _ _ f => f
  | _ => none

/-- The entry with its follow cleared (R36). -/
def RunEntry.clearFollow (e : RunEntry) : RunEntry :=
  match e.kind with
  | .cue t c _ => { e with kind := .cue t c none }
  | _ => e

/-- A RUNNING slot READY again, its content unchanged (R17). -/
def Slot.toReady : Slot → Slot
  | .running h ms => .ready h ms
  | x => x

/-- A READY slot RUNNING, its content unchanged (R17). -/
def Slot.toRunning : Slot → Slot
  | .ready h ms => .running h ms
  | x => x

/-- An entry leaves the run list: the gap closes, its number is free, the slot of a CUE entry is READY (R25, R26, R17). The
pairs of a BACK entry are freed with it (R64). -/
def State.removeEntry (s : State) (e : RunEntry) : State :=
  let s := s.setRunList (s.runList.filter fun x => x.number ≠ e.number)
  match e.kind with
  | .cue t _ _ => s.setSlot t (s.slot t).toReady
  | _ => s

/-- An entry is done when it owns nothing and holds no pending follow (R26). An entry whose follow is firing is not
tested until the internal GO has been taken (R36, R37): `firing` lists those entries by birth. -/
def RunEntry.done (firing : List Nat) (e : RunEntry) : Bool :=
  e.owned = 0 && e.follow.isNone && !firing.contains e.birth

/-- The test for removal of the entry numbered `n` (R26). -/
def State.testLeave (s : State) (firing : List Nat) (n : Fin 16) : State :=
  match s.entry? n with
  | some e => if e.done firing then s.removeEntry e else s
  | none => s

/-- The test for removal of the entry of birth `b`, if it is still in the list (R28, R36). -/
def State.testLeaveBorn (s : State) (firing : List Nat) (b : Nat) : State :=
  match s.born? b with
  | some e => if e.done firing then s.removeEntry e else s
  | none => s

/-- The lowest entry number that no entry in the list holds (R25). -/
def State.lowestFree (s : State) : Fin 16 :=
  ((List.ofFn fun n : Fin 16 => n).find? fun n => (s.entry? n).isNone).getD 0

/-! ## Takeover and evaluation (R27 to R29) -/

/-- One channel a start names: the channel, its target level, and the times and delays in pu of an up and of a down
move (R50, R51). -/
structure Take where
  channel : Fin 512
  target : Nat
  upTime : Nat
  downTime : Nat
  upDelay : Nat
  downDelay : Nat
deriving DecidableEq, Repr

/-- What a new owner holds of a record whose level at takeover is `level` (R27, R49, R50): up when the target is at or above
that level. -/
def Take.ownership (k : Take) (n : Fin 16) (level : Nat) : Ownership :=
  let up := level ≤ k.target
  let delay := if up then k.upDelay else k.downDelay
  { owner := n, phase := if delay = 0 then .fading else .waiting, start := level, target := k.target,
    delay := delay, time := if up then k.upTime else k.downTime }

/-- The old owner of a record lets go: its owned count falls by one and it is tested for removal (R27, R26). -/
def State.release (s : State) (firing : List Nat) (r : ChannelRecord) : State :=
  match r.own with
  | some o => (s.modEntry o.owner fun e => { e with owned := e.owned - 1 }).testLeave firing o.owner
  | none => s

/-- Takeover of one channel of playback `p` by entry `n` (R27). -/
def State.takeover (s : State) (firing : List Nat) (n : Fin 16) (p : Fin 4) (k : Take) : State :=
  let r := s.channel p k.channel
  let s := s.release firing r
  let s := s.modEntry n fun e => { e with owned := e.owned + 1 }
  s.setChannel p k.channel ⟨r.level, some (k.ownership n r.level)⟩

/-- Entry `n` evaluated at its clock (R28, R29, R32): every channel it owns takes its level and phase, those at or past
D + T complete, the owned count falls by their number and the entry is tested for removal. -/
def State.evaluate (s : State) (firing : List Nat) (n : Fin 16) : State :=
  match s.entry? n with
  | none => s
  | some e =>
    let table := s.channels.get e.playback
    let finished := table.count (completesAt n e.clock)
    let s := { s with channels := s.channels.set e.playback (table.map (evalRecord n e.clock)) }
    let s := s.modEntry n fun x => { x with owned := x.owned - finished }
    if finished = 0 then s else s.testLeave firing n

/-! ## Forced completion (R30) -/

/-- Entry `e` force-completed: its channels at their targets and IDLE, its follow dropped, the entry gone, FORCED raised. -/
def State.forceComplete (s : State) (e : RunEntry) : State :=
  let s := { s with channels := s.channels.modify e.playback (Table.map (forceRecord e.number)) }
  (s.removeEntry e).notifyAll .forced

/-- Room for a start: at a full run list the oldest entry is force-completed (R30). -/
def State.makeRoom (s : State) : State :=
  if Config.runEntries ≤ s.runList.length then
    match s.runList with
    | e :: _ => s.forceComplete e
    | [] => s
  else s

/-! ## Starts (R27, R28) -/

/-- A run entry created at the end of the list with clock 0, under the lowest free number (R24, R25). -/
def State.createEntry (s : State) (kind : EntryKind) (p : Fin 4) (who : StartedBy) : State :=
  { s with
    runList := s.runList ++ [{ number := s.lowestFree, birth := s.births, kind := kind, playback := p, clock := 0,
                               owned := 0, startedBy := who }]
    births := s.births + 1 }

/-- A start (R27, R28) up to its evaluation at e = 0: room made, the entry created, each channel taken over in order, the entry
evaluated. -/
def State.start (s : State) (firing : List Nat) (kind : EntryKind) (p : Fin 4) (who : StartedBy) (takes : List Take) : State :=
  let s := s.makeRoom
  let n := s.lowestFree
  let s := s.createEntry kind p who
  let s := takes.foldl (fun s k => s.takeover firing n p k) s
  s.evaluate firing n

/-- A start of a kind that has no follow: BACK, MANUAL, RELEASE. The last test for removal ends it (R28). -/
def State.plainStart (s : State) (kind : EntryKind) (p : Fin 4) (who : StartedBy) (takes : List Take) : State :=
  (s.start [] kind p who takes).testLeaveBorn [] s.births

/-! ## The restore push (R66, R67) -/

/-- The pairs a push captures: for each move, in move order, the channel and the level it has (R66). -/
def State.capture (s : State) (p : Fin 4) (ms : List Move) : List RestorePair :=
  ms.map fun m => ⟨m.channel, (s.channel p m.channel).level⟩

/-- The oldest entries of a stack discarded while `held` other pairs and the stack's own leave no room for `need` more, at most
`fuel` of them (R66 step 2). -/
def discardOldest (held need : Nat) : Nat → List RestoreEntry → List RestoreEntry
  | 0, st => st
  | fuel + 1, st =>
    if held + stackPairs st + need ≤ Config.restorePairs then st else discardOldest held need fuel st.dropLast

/-- The stack of playback `p` once room has been sought for `need` pairs (R66 steps 1 and 2). -/
def State.roomyStack (s : State) (p : Fin 4) (need : Nat) : List RestoreEntry :=
  let st := (s.playback p).stack
  let others := s.heldPairs - stackPairs st
  let st := if Config.restoreDepth ≤ st.length then st.dropLast else st
  discardOldest others need st.length st

/-- The push of a GO or follow on playback `p` for the moves of its slot (R66), or its skipping with BACK_LOST (R67). -/
def State.push (s : State) (p : Fin 4) (ms : List Move) : State :=
  let pairs := s.capture p ms
  let old := (s.playback p).stack
  let others := s.heldPairs - stackPairs old
  let st := s.roomyStack p pairs.length
  if others + stackPairs st + pairs.length ≤ Config.restorePairs then
    s.modPlayback p fun x => { x with stack := ⟨x.currentCue, pairs⟩ :: st }
  else (s.modPlayback p fun x => { x with stack := st }).notifyDesks .backLost

/-! ## GO and follow (R35, R36, R37) -/

/-- The channels a cue names, with the times of its slot in pu (R48, R50). -/
def cueTakes (h : CueHeader) (ms : List Move) : List Take :=
  ms.map fun m =>
    { channel := m.channel, target := m.target,
      upTime := m.ownTime.getD h.upTime * Config.puPerTenth, downTime := m.ownTime.getD h.downTime * Config.puPerTenth,
      upDelay := m.ownDelay.getD h.upDelay * Config.puPerTenth,
      downDelay := m.ownDelay.getD h.downDelay * Config.puPerTenth }

/-- The follow a CUE entry takes from its slot's header, F in pu (R24, R48). -/
def entryFollow (h : CueHeader) : Option EntryFollow :=
  h.follow.map fun f => ⟨f.slot, f.tenths * Config.puPerTenth⟩

/-- The echo record set and the echo timer restarted at 2.0 s (R34). -/
def Playback.setEcho (x : Playback) (kind : EchoKind) (cue : Nat) (who : StartedBy) : Playback :=
  { x with echo := some ⟨kind, cue, who⟩, echoTimer := some Config.echoMs }

/-- The steps of a taken GO (R35) on the content of its READY slot, up to the evaluation at e = 0. The slot, the current cue and
the echo record are set before room is made and the entry created; nothing between reads them. -/
def State.beginCue (s : State) (firing : List Nat) (p : Fin 4) (t : Fin 32) (h : CueHeader) (ms : List Move) (who : StartedBy) :
    State :=
  let s := s.modPlayback p fun x => { x with held := false }
  let s := s.push p ms
  let s := s.setSlot t (s.slot t).toRunning
  let s := s.modPlayback p fun x => { (x.setEcho .cue h.cue who) with currentCue := h.cue }
  s.start firing (.cue t h.cue (entryFollow h)) p who (cueTakes h ms)

/-- A follow that comes due and finds no READY slot lapses (R36). -/
def State.lapse (s : State) (firing : List Nat) (b : Nat) : State :=
  (s.notifyDesks .followLapsed).testLeaveBorn firing b

/-- The follow of an entry that has come due at its clock (R36). -/
def RunEntry.dueFollow (e : RunEntry) : Option (Fin 32) :=
  match e.follow with
  | some f => if f.due ≤ e.clock then some f.slot else none
  | none => none

/-- The follow of the entry of birth `b` tested, and the entry then tested for removal (R28, R36). `chain` lists the slots the
chain of starts has already started (R37, log 15), `fuel` bounds its further starts. -/
def State.testFollow : Nat → List (Fin 32) → List Nat → Nat → State → State
  | fuel, chain, firing, b, s =>
    match s.born? b with
    | none => s
    | some e =>
      match e.dueFollow with
      | none => s.testLeaveBorn firing b
      | some t =>
        let s := s.modEntry e.number RunEntry.clearFollow
        match fuel, s.slot t with
        | fuel + 1, .ready h ms =>
          if chain.contains t then s.lapse firing b
          else
            let b' := s.births
            let s := s.beginCue (b :: firing) e.playback t h ms .follow
            let s := State.testFollow fuel (t :: chain) (b :: firing) b' s
            s.testLeaveBorn firing b
        | _, _ => s.lapse firing b

/-- A GO taken from desk `d` (R35) for a READY slot with the given content. -/
def State.takeGo (s : State) (d : Desk) (p : Fin 4) (t : Fin 32) (h : CueHeader) (ms : List Move) : State :=
  State.testFollow Config.chainStarts [t] [] s.births (s.beginCue [] p t h ms (.desk d))

/-! ## The fade tick (R32) -/

/-- One visit of a fade tick: the entry of birth `b`, if it is still in the list and its playback's clock runs, has its clock
advanced by the rate, is evaluated, and has its follow tested. -/
def State.visit (s : State) (b : Nat) : State :=
  match s.born? b with
  | none => s
  | some e =>
    if s.clockRuns e.playback then
      let s := s.modEntry e.number fun x => { x with clock := x.clock + (s.playback e.playback).rate }
      let s := s.evaluate [] e.number
      State.testFollow Config.chainStarts [] [] b s
    else s

/-- A fade tick: the entries present when it begins are visited oldest first (R32). -/
def State.tick (s : State) : State := (s.runList.map (·.birth)).foldl State.visit s

end Sys2Proof.Machine
end

