-- ==== Sys2Proof/Machine/Playback.lean ====
section
/-! DEFINITION. The requests and timers of the fade engine (chapters 2 and 4): GO, BACK, MANUAL, RELEASE, HOLD, RESUME, RATE,
PB_LEVEL, PLAYBACK_SETUP, FADE_TICK, FOLLOW_DUE and ECHO_TIMER_EXPIRY. -/

namespace Sys2Proof.Machine

/-! ## Starts -/

/-- Whether a GO for cue number `cue` repeats the last start of its playback (R35, check 1). -/
def Playback.echoesGo (x : Playback) (cue : Nat) : Bool :=
  x.echoTimer.isSome && x.echo.any fun r => r.kind = .cue && r.cue = cue

/-- Whether a BACK from desk `d` repeats the other desk's BACK (R68, check 1). -/
def Playback.echoesBack (x : Playback) (d : Desk) : Bool :=
  x.echoTimer.isSome && x.echo.any fun r => r.kind = .back && r.link ≠ .desk d

/-- A cue number outside 1..9999 (R33). -/
def badCue (cue : Nat) : Bool := cue = 0 || Config.lastCue < cue

/-- The checks that a GO, BACK, MANUAL or RELEASE shares once its role has passed: a FREEZE line asserted, a rebuild in
flight (R35, R38, R39, R68). -/
def startChecks (s : State) : List (Bool × ResultCode) := [(s.frozen, .heldByLine), (s.rebuilding, .bankBusy)]

/-- GO (R35): the echo check before the role check; then the slot must be READY under the request's cue number. -/
def decideGo (l : Link) (body : List Byte) (role : Role) (s : State) : Verdict :=
  match readGo body with
  | none => answer .badField s
  | some f =>
    match deskOf l with
    | none => answer .role s
    | some d =>
      match numbered 4 f.playback, indexed 32 f.slot with
      | some p, some t =>
        if badCue f.cue then answer .badField s
        else
          refuseFirst ([((s.playback p).echoesGo f.cue, .echo), (decide (role ≠ .lead), .notLead)] ++ startChecks s) s
            (match s.slot t with
             | .running _ _ => answer .slotRunning s
             | .ready h ms => if h.cue ≠ f.cue then answer .staleSlot s else answer .ok (s.takeGo d p t h ms)
             | _ => answer .slotState s)
      | _, _ => answer .badField s

/-- The channels a BACK or MANUAL names: the same time both ways, no delay (R51). -/
def flatTake (tenths : Nat) (c : Fin 512) (target : Nat) : Take :=
  ⟨c, target, tenths * Config.puPerTenth, tenths * Config.puPerTenth, 0, 0⟩

/-- The steps of a taken BACK (R69): the top entry popped, its pairs held by the new BACK entry, the current cue back at the
prior cue. -/
def State.takeBack (s : State) (d : Desk) (p : Fin 4) (top : RestoreEntry) (rest : List RestoreEntry) : State :=
  let s := s.modPlayback p fun x =>
    { (x.setEcho .back top.priorCue (.desk d)) with held := false, stack := rest, currentCue := top.priorCue }
  s.plainStart (.back top.priorCue top.pairs) p (.desk d)
    (top.pairs.map fun r => flatTake (s.rig.playbacks.get p).backTime r.channel r.level)

/-- BACK (R68). -/
def decideBack (l : Link) (body : List Byte) (role : Role) (s : State) : Verdict :=
  match readByte body with
  | none => answer .badField s
  | some f =>
    match deskOf l with
    | none => answer .role s
    | some d =>
      match numbered 4 f with
      | none => answer .badField s
      | some p =>
        refuseFirst ([((s.playback p).echoesBack d, .echo), (decide (role ≠ .lead), .notLead)] ++ startChecks s) s
          (match (s.playback p).stack with
           | [] => answer .nothingBack s
           | top :: rest => answer .ok (s.takeBack d p top rest))

/-- The pairs of a MANUAL with their channels checked; `none` where a channel is 0 or above 512 (R33). -/
def checkPairs : List (Nat × Nat) → Option (List (Fin 512 × Nat))
  | [] => some []
  | (c, v) :: rest =>
    match numbered 512 c, checkPairs rest with
    | some c, some ps => some ((c, v) :: ps)
    | _, _ => none

/-- Whether a list names an index twice. -/
def namesTwice {n : Nat} : List (Fin n) → Bool
  | [] => false
  | c :: rest => rest.contains c || namesTwice rest

/-- MANUAL (R38): a timed fade of named channels. -/
def decideManual (l : Link) (body : List Byte) (role : Role) (s : State) : Verdict :=
  match readManual body with
  | none => answer .badField s
  | some f =>
    match deskOf l with
    | none => answer .role s
    | some d =>
      match numbered 4 f.playback, checkPairs f.pairs with
      | some p, some pairs =>
        if pairs.length = 0 ∨ Config.batchEntries < pairs.length then answer .badField s
        else
          refuseFirst ([(decide (role ≠ .lead), .notLead), (namesTwice (pairs.map (·.1)), .badField)] ++ startChecks s) s
            (answer (okOr (tenthsOver f.time))
              (s.plainStart .manual p (.desk d) (pairs.map fun x => flatTake (clampTenths f.time) x.1 x.2)))
      | _, _ => answer .badField s

/-- The channels of playback `p` that a RELEASE takes, in ascending channel number: lit or owned (R39). -/
def State.releasable (s : State) (p : Fin 4) : List (Fin 512) :=
  (List.ofFn fun c : Fin 512 => c).filter fun c => 0 < (s.channel p c).level || (s.channel p c).own.isSome

/-- The steps of a taken RELEASE (R39, R72). -/
def State.takeRelease (s : State) (d : Desk) (p : Fin 4) : State :=
  let s := s.modPlayback p fun x => { x with stack := [], currentCue := 0 }
  match s.releasable p with
  | [] => s
  | cs => s.plainStart .release p (.desk d) (cs.map fun c => flatTake (s.rig.playbacks.get p).releaseTime c 0)

/-- RELEASE (R39): the playback fades out. -/
def decideRelease (l : Link) (body : List Byte) (role : Role) (s : State) : Verdict :=
  match readByte body with
  | none => answer .badField s
  | some f =>
    match deskOf l with
    | none => answer .role s
    | some d =>
      match numbered 4 f with
      | none => answer .badField s
      | some p =>
        refuseFirst ([(decide (role ≠ .lead), .notLead)] ++ startChecks s) s (answer .ok (s.takeRelease d p))

/-! ## Steering -/

/-- The playbacks a HOLD or RESUME names: 0 for all four (R40). -/
def namedPlaybacks (k : Nat) : Option (List (Fin 4)) :=
  if k = 0 then some [0, 1, 2, 3] else (numbered 4 k).map fun p => [p]

/-- The desk-hold flag of the named playbacks set to `b` (R40). -/
def State.setHolds (s : State) (ps : List (Fin 4)) (b : Bool) : State :=
  ps.foldl (fun s p => s.modPlayback p fun x => { x with held := b }) s

/-- HOLD and RESUME (R40). -/
def decideHolds (b : Bool) (l : Link) (body : List Byte) (role : Role) (s : State) : Verdict :=
  match readByte body with
  | none => answer .badField s
  | some k =>
    match deskOf l with
    | none => answer .role s
    | some _ =>
      match namedPlaybacks k with
      | none => answer .badField s
      | some ps => if role ≠ .lead then answer .notLead s else answer .ok (s.setHolds ps b)

/-- RATE (R41): held to 1..400. -/
def decideRate (l : Link) (body : List Byte) (role : Role) (s : State) : Verdict :=
  match readByteWord body with
  | none => answer .badField s
  | some (k, rate) =>
    match deskOf l with
    | none => answer .role s
    | some _ =>
      match numbered 4 k with
      | none => answer .badField s
      | some p =>
        if role ≠ .lead then answer .notLead s
        else answer (okOr (decide (clampTo 1 400 rate ≠ rate))) (s.modPlayback p fun x => { x with rate := clampTo 1 400 rate })

/-- PB_LEVEL (R42). -/
def decidePbLevel (l : Link) (body : List Byte) (role : Role) (s : State) : Verdict :=
  match readByteWord body with
  | none => answer .badField s
  | some (k, level) =>
    match deskOf l with
    | none => answer .role s
    | some _ =>
      match numbered 4 k with
      | none => answer .badField s
      | some p =>
        if role ≠ .lead then answer .notLead s else answer .ok (s.modPlayback p fun x => { x with master := level })

/-- PLAYBACK_SETUP (R43): the back time and release time of the rig record. -/
def decidePlaybackSetup (l : Link) (body : List Byte) (role : Role) (s : State) : Verdict :=
  match readPlaybackSetup body with
  | none => answer .badField s
  | some (k, backTime, releaseTime) =>
    match deskOf l with
    | none => answer .role s
    | some _ =>
      match numbered 4 k with
      | none => answer .badField s
      | some p =>
        refuseFirst [(decide (role ≠ .lead), .notLead), (s.savingRig, .storeBusy)] s
          (answer (okOr (tenthsOver backTime || tenthsOver releaseTime))
            (s.setRig { s.rig with
              playbacks := s.rig.playbacks.set p ⟨clampTenths backTime, clampTenths releaseTime⟩ }))

/-! ## The rows -/

def execGo (link : Link) (tag : Byte) (body : List Byte) (s : State) : Host.Outcome State Fault Refusal :=
  .next (requestRow link ⟨kindGo, tag, body⟩ (decideGo link body) s)

def execBack (link : Link) (tag : Byte) (body : List Byte) (s : State) : Host.Outcome State Fault Refusal :=
  .next (requestRow link ⟨kindBack, tag, body⟩ (decideBack link body) s)

def execManual (link : Link) (tag : Byte) (body : List Byte) (s : State) : Host.Outcome State Fault Refusal :=
  .next (requestRow link ⟨kindManual, tag, body⟩ (decideManual link body) s)

def execRelease (link : Link) (tag : Byte) (body : List Byte) (s : State) : Host.Outcome State Fault Refusal :=
  .next (requestRow link ⟨kindRelease, tag, body⟩ (decideRelease link body) s)

def execHold (link : Link) (tag : Byte) (body : List Byte) (s : State) : Host.Outcome State Fault Refusal :=
  .next (requestRow link ⟨kindHold, tag, body⟩ (decideHolds true link body) s)

def execResume (link : Link) (tag : Byte) (body : List Byte) (s : State) : Host.Outcome State Fault Refusal :=
  .next (requestRow link ⟨kindResume, tag, body⟩ (decideHolds false link body) s)

def execRate (link : Link) (tag : Byte) (body : List Byte) (s : State) : Host.Outcome State Fault Refusal :=
  .next (requestRow link ⟨kindRate, tag, body⟩ (decideRate link body) s)

def execPbLevel (link : Link) (tag : Byte) (body : List Byte) (s : State) : Host.Outcome State Fault Refusal :=
  .next (requestRow link ⟨kindPbLevel, tag, body⟩ (decidePbLevel link body) s)

def execPlaybackSetup (link : Link) (tag : Byte) (body : List Byte) (s : State) : Host.Outcome State Fault Refusal :=
  .next (requestRow link ⟨kindPlaybackSetup, tag, body⟩ (decidePlaybackSetup link body) s)

/-- FADE_TICK (R32). -/
def execFadeTick (s : State) : Host.Outcome State Fault Refusal := .next (whileRunning s s.tick)

/-- The follow of the entry numbered `n` come due: tested on a running clock, it fires or lapses; a follow not yet due stays
pending (R36, log 8). -/
def State.followDue (s : State) (n : Fin 16) : State :=
  match s.entry? n with
  | none => s
  | some e =>
    if s.clockRuns e.playback && e.dueFollow.isSome then State.testFollow Config.chainStarts [] [] e.birth s else s

/-- FOLLOW_DUE (R36). -/
def execFollowDue (entry : Fin 16) (s : State) : Host.Outcome State Fault Refusal := .next (whileRunning s (s.followDue entry))

/-- ECHO_TIMER_EXPIRY (R34): the timer stops and the record stays. -/
def execEchoTimerExpiry (playback : Fin 4) (s : State) : Host.Outcome State Fault Refusal :=
  .next (whileRunning s (s.modPlayback playback fun x => { x with echoTimer := none }))

end Sys2Proof.Machine
end

