-- ==== Sys2Proof/Machine/Merge.lean ====
section
/-! DEFINITION. The output merge and the rack lines (chapters 6 and 9): the dimmer laws and limits, the eight steps of the merge,
frame starts, and the requests GRAND and RACK_SETUP. -/

namespace Sys2Proof.Machine

/-! ## Dimmer laws (R97 to R102) -/

/-- A law given by a list of seventeen points. -/
def pointsOf (l : List Nat) (h : l.length = 17 := by decide) : Points := ⟨l, h⟩

/-- The points of LINEAR (R97). -/
def linearPoints : Points :=
  pointsOf [0, 4096, 8192, 12288, 16384, 20480, 24576, 28672, 32768, 36864, 40960, 45056, 49152, 53248, 57344, 61440, 65535]

/-- The points of SQUARE (R97). -/
def squarePoints : Points :=
  pointsOf [0, 255, 1023, 2303, 4095, 6399, 9215, 12543, 16383, 20735, 25599, 30975, 36863, 43263, 50175, 57599, 65535]

/-- The points of FASTSTART (R97). -/
def faststartPoints : Points :=
  pointsOf [0, 7936, 15360, 22272, 28672, 34560, 39936, 44800, 49152, 52992, 56320, 59136, 61440, 63232, 64512, 65280, 65535]

/-- A dimmer law as it is evaluated: by points, or directly. -/
inductive Law where
  | points (p : Points)
  | switch
  | fluorescent
deriving DecidableEq, Repr

/-- The law a page and index name (R97, R98), LINEAR for an undefined one (R101). The built-in laws stand at indices 0 to 4 in
the order R97 names them (log 9). -/
def lawOf (laws : List Points) (page index : Nat) : Law :=
  if page = 0 then
    match index with
    | 1 => .points squarePoints
    | 2 => .points faststartPoints
    | 3 => .switch
    | 4 => .fluorescent
    | _ => .points linearPoints
  else .points ((laws[index]?).getD linearPoints)

/-- The interpolation of a point law (R99). -/
def interpolate (p : Points) (r : Nat) : Nat :=
  if r < 61440 then
    let i : Nat := r / 4096
    let lo := (p.cells[i]?).getD 0
    let hi := (p.cells[i + 1]?).getD 0
    lo + (hi - lo) * (r - 4096 * i) / 4096
  else p.get 15 + (p.get 16 - p.get 15) * (r - 61440) / 4095

/-- The law output of a raw level (R99, R100). -/
def Law.output (w : Law) (r : Nat) : Nat :=
  match w with
  | .points p => interpolate p r
  | .switch => if r < 32768 then 0 else 65535
  | .fluorescent => if r = 0 then 0 else 16384 + 3 * r / 4

/-- The limits after a law (R102): SWITCH takes the top-set alone, every other law the preheat and then the top-set. -/
def limitOutput (w : Law) (f : Profile) (v : Nat) : Nat :=
  match w with
  | .switch => min v f.topSet
  | _ => min (max v f.preheat) f.topSet

/-- The output level of a raw level under a profile (R102, R103). -/
def profileOutput (laws : List Points) (f : Profile) (r : Nat) : Nat :=
  let w := lawOf laws f.page f.index
  limitOutput w f (w.output r)

/-! ## The merge of one circuit (R142 to R146) -/

/-- Step 1: the playback level of a channel (R142). -/
def State.playbackLevel (s : State) (p : Fin 4) (c : Fin 512) : Nat :=
  (s.channel p c).level * (s.playback p).master / Config.full

/-- Step 2: the channel level, the highest of the four (R142). -/
def State.channelLevel (s : State) (c : Fin 512) : Nat :=
  max (max (s.playbackLevel 0 c) (s.playbackLevel 1 c)) (max (s.playbackLevel 2 c) (s.playbackLevel 3 c))

/-- Step 3: the show level, under the grand master and blackout (R143). -/
def State.showLevel (s : State) (c : Fin 512) : Nat :=
  if s.blackout then 0 else s.channelLevel c * s.grand / Config.full

/-- The highest of a list of levels, 0 for none. -/
def highest (l : List Nat) : Nat := l.foldl max 0

/-- Step 4: the show output of a circuit, the highest contribution of its feeders (R144). -/
def State.showOutput (s : State) (c : Fin 768) : Nat :=
  highest ((s.liveMap.get c).map fun f => s.showLevel f.channel * f.percent / 100)

/-- The park of a circuit. -/
def State.park? (s : State) (c : Fin 768) : Option Park := s.parks.find? fun x => x.circuit = c

/-- The level a park holds its circuit at (R111, R120). -/
def Park.level (x : Park) : Nat :=
  match x.flash with
  | some f => match f.phase with
    | .a => x.levelA
    | .b => f.levelB
  | none => x.levelA

/-- Step 5: the raw level with parks (R145). -/
def State.parkedLevel (s : State) (c : Fin 768) : Nat :=
  match s.park? c with
  | some x => x.level
  | none => s.showOutput c

/-- The level a look holds for a circuit, if it names it (R131). -/
def Look.levelFor (k : Look) (c : Fin 768) : Option Nat := (k.entries.find? fun e => e.circuit = c).map (·.level)

/-- The raised looks that name a circuit, each with its priority and level (R136). -/
def State.lookCandidates (s : State) (c : Fin 768) : List (Nat × Nat) :=
  (List.ofFn fun k : Fin 4 => k).filterMap fun k =>
    if s.raised k then ((s.rig.looks.get k).levelFor c).map fun v => ((s.rig.looks.get k).priority, v) else none

/-- The look level of a circuit: the highest priority first, then the highest level (R136); `none` where no raised look names
it. -/
def State.lookLevel (s : State) (c : Fin 768) : Option Nat :=
  match s.lookCandidates c with
  | [] => none
  | cs => let top := highest (cs.map (·.1))
          some (highest ((cs.filter fun x => x.1 = top).map (·.2)))

/-- Step 6: the raw level with looks (R145). -/
def State.rawLevel (s : State) (c : Fin 768) : Nat := (s.lookLevel c).getD (s.parkedLevel c)

/-- Step 7: the output level of a circuit (R146). -/
def State.output (s : State) (c : Fin 768) : Nat := profileOutput s.rig.laws (s.rig.profiles.get c) (s.rawLevel c)

/-! ## Frames (R141, R147, R148, R187) -/

/-- The circuit at place `i` of rack line `k` (R139). -/
def rackCircuit (k : Fin 3) (i : Fin 256) : Fin 768 := ⟨256 * k.val + i.val, by omega⟩

/-- Step 8: a frame value in a resolution (R146). -/
def frameValue (r : Resolution) (v : Nat) : List Byte :=
  match r with
  | .bits8 => [byteOf (v / 256)]
  | .bits16 => bytes16 v

/-- The header of a frame (R187). -/
def frameHeader : Resolution → Byte
  | .bits8 => 0x08
  | .bits16 => 0x10

/-- The bytes of a frame on its line (R187). -/
def Frame.bytes (f : Frame) : List Byte := frameHeader f.resolution :: f.levels.cells.flatMap (frameValue f.resolution)

/-- The lit count of a frame's levels (R148). -/
def litCount (levels : Table 256 Nat) : Nat := levels.count fun v => Config.lit ≤ v

/-- The frame a line computes from the state as it stands (R141). -/
def State.computeFrame (s : State) (k : Fin 3) : Frame where
  resolution := (s.rig.racks.get k).resolution
  levels := Table.tabulate fun i => s.output (rackCircuit k i)

def State.rack (s : State) (k : Fin 3) : RackLine := s.racks.get k
def State.setRack (s : State) (k : Fin 3) (x : RackLine) : State := { s with racks := s.racks.set k x }

/-- A frame start of line `k` that computes its circuits and sends the frame (R141, R148). -/
def State.freshFrame (s : State) (k : Fin 3) : State :=
  let f := s.computeFrame k
  s.setRack k ⟨some (s.rig.racks.get k).period, some f, litCount f.levels, f.bytes⟩

/-- A frame start of line `k` during a rebuild: the last frame is sent again, byte for byte (R90). -/
def State.repeatFrame (s : State) (k : Fin 3) : State :=
  let x := s.rack k
  s.setRack k { x with timer := some (s.rig.racks.get k).period, sent := (x.last.map Frame.bytes).getD [] }

/-- The expiry of line `k`'s period timer: the timer restarts and the line takes its frame start (R141). A stopped timer does
not expire. -/
def State.frameStart (s : State) (k : Fin 3) : State :=
  if (s.rack k).timer.isNone then s else if s.rebuilding then s.repeatFrame k else s.freshFrame k

/-! ## The rows -/

/-- FRAME_START (R141). -/
def execFrameStart (rack : Fin 3) (s : State) : Host.Outcome State Fault Refusal := .next (whileRunning s (s.frameStart rack))

/-- A setting carried as 0 or 1 (OFF, ON; CLEAR, SET); `none` for any other value (R184). -/
def switchValue (n : Nat) : Option Bool := if n = 0 then some false else if n = 1 then some true else none

/-- GRAND (R149). -/
def decideGrand (l : Link) (body : List Byte) (role : Role) (s : State) : Verdict :=
  match readWordByte body with
  | none => answer .badField s
  | some (level, b) =>
    match deskOf l with
    | none => answer .role s
    | some _ =>
      match switchValue b.toNat with
      | none => answer .badField s
      | some on => if role ≠ .lead then answer .notLead s else answer .ok { s with grand := level, blackout := on }

/-- A resolution as RACK_SETUP carries it (R150, R184). -/
def resolutionValue (n : Nat) : Option Resolution := if n = 8 then some .bits8 else if n = 16 then some .bits16 else none

/-- RACK_SETUP (R150): the period held to 20..50 ms. -/
def decideRackSetup (l : Link) (body : List Byte) (role : Role) (s : State) : Verdict :=
  match readBytes3 body with
  | none => answer .badField s
  | some (n, res, period) =>
    match deskOf l with
    | none => answer .role s
    | some _ =>
      match numbered 3 n, resolutionValue res with
      | some k, some r =>
        refuseFirst [(decide (role ≠ .lead), .notLead), (s.savingRig, .storeBusy)] s
          (answer (okOr (decide (clampTo 20 50 period ≠ period)))
            (s.setRig { s.rig with racks := s.rig.racks.set k ⟨r, clampTo 20 50 period⟩ }))
      | _, _ => answer .badField s

def execGrand (link : Link) (tag : Byte) (body : List Byte) (s : State) : Host.Outcome State Fault Refusal :=
  .next (requestRow link ⟨kindGrand, tag, body⟩ (decideGrand link body) s)

def execRackSetup (link : Link) (tag : Byte) (body : List Byte) (s : State) : Host.Outcome State Fault Refusal :=
  .next (requestRow link ⟨kindRackSetup, tag, body⟩ (decideRackSetup link body) s)

end Sys2Proof.Machine
end

