-- ==== Sys2Proof/Machine/Profile.lean ====
section
/-! DEFINITION. The requests to the rig profile (chapter 6): PROFILE_SET and LAW_LOAD. -/

namespace Sys2Proof.Machine

/-- The working rig record with a change to its profiles or user laws, the law-fault count recomputed (R101, R105, R108). -/
def State.setProfiles (s : State) (r : RigRecord) : State := { s with rig := r, lawFaults := countLawFaults r }

/-- The change a taken PROFILE_SET makes: the profile replaced whole, the law-fault count brought up to date, and LAW_FAULT
raised when the profile names an undefined law (R105, R106). -/
def State.setProfile (s : State) (c : Fin 768) (f : Profile) : State :=
  let s' := s.setProfiles { s.rig with profiles := s.rig.profiles.set c f }
  if undefinedLaw s.rig.laws f then s'.notifyAll .lawFault else s'

/-- PROFILE_SET (R104, R105). -/
def decideProfileSet (l : Link) (body : List Byte) (role : Role) (s : State) : Verdict :=
  match readProfileSet body with
  | none => answer .badField s
  | some f =>
    match deskOf l with
    | none => answer .role s
    | some _ =>
      match numbered 768 f.circuit with
      | none => answer .badField s
      | some c =>
        refuseFirst
          [(decide (1 < f.page) || decide (7 < f.index), .badField), (decide (role ≠ .lead), .notLead),
           (decide (f.topSet < f.preheat), .badField), (s.rebuilding, .bankBusy), (s.savingRig, .storeBusy)] s
          (answer .ok (s.setProfile c ⟨f.page, f.index, f.preheat, f.topSet⟩))

/-- Whether a list of points falls anywhere (R107). -/
def falls : List Nat → Bool
  | a :: b :: rest => b < a || falls (b :: rest)
  | _ => false

/-- The user laws with the law at `i` replaced, or a law appended at the count (R107). -/
def loadLaw (laws : List Points) (i : Nat) (p : Points) : List Points :=
  if i < laws.length then laws.set i p else laws ++ [p]

/-- LAW_LOAD (R104, R107, R108). -/
def decideLawLoad (l : Link) (body : List Byte) (role : Role) (s : State) : Verdict :=
  match readLawLoad body with
  | none => answer .badField s
  | some (i, p) =>
    match deskOf l with
    | none => answer .role s
    | some _ =>
      refuseFirst
        [(decide (7 < i), .badField), (decide (role ≠ .lead), .notLead), (decide (s.rig.laws.length < i), .badField),
         (falls p.cells, .badField), (s.savingRig, .storeBusy)] s
        (answer .ok (s.setProfiles { s.rig with laws := loadLaw s.rig.laws i p }))

def execProfileSet (link : Link) (tag : Byte) (body : List Byte) (s : State) : Host.Outcome State Fault Refusal :=
  .next (requestRow link ⟨kindProfileSet, tag, body⟩ (decideProfileSet link body) s)

def execLawLoad (link : Link) (tag : Byte) (body : List Byte) (s : State) : Host.Outcome State Fault Refusal :=
  .next (requestRow link ⟨kindLawLoad, tag, body⟩ (decideLawLoad link body) s)

end Sys2Proof.Machine
end

