-- ==== Sys2Proof/Machine/Patch.lean ====
section
/-! DEFINITION. The patch unit (chapter 5): the order of a bank, the live circuit map, the edits PATCH_SET, BANK_CLEAR and BANK_COPY,
START_BANK, and the rebuild from BANK_SELECT to REBUILD_END. -/

namespace Sys2Proof.Machine

/-! ## Banks and the live circuit map (R75, R77) -/

/-- The order of a bank: ascending channel, then ascending circuit (R75). -/
def PatchEntry.before (a b : PatchEntry) : Bool :=
  a.channel < b.channel || (a.channel = b.channel && a.circuit < b.circuit)

/-- Whether an entry is that of a channel and circuit. -/
def PatchEntry.isPair (c : Fin 512) (d : Fin 768) (e : PatchEntry) : Bool := e.channel = c && e.circuit = d

/-- A new entry inserted at its place in the order (R82). -/
def insertEntry (e : PatchEntry) : List PatchEntry → List PatchEntry
  | [] => [e]
  | x :: rest => if e.before x then e :: x :: rest else x :: insertEntry e rest

/-- The percent of a pair changed where it stands. -/
def updateEntry (e : PatchEntry) (bank : List PatchEntry) : List PatchEntry :=
  bank.map fun x => if x.isPair e.channel e.circuit then e else x

/-- The entry of a pair removed. -/
def removeEntryOf (c : Fin 512) (d : Fin 768) (bank : List PatchEntry) : List PatchEntry :=
  bank.filter fun x => !x.isPair c d

/-- A bank after a PATCH_SET of a pair at a percent already held to 0..100 (the table of R82). -/
def patchBank (c : Fin 512) (d : Fin 768) (percent : Nat) (bank : List PatchEntry) : List PatchEntry :=
  if percent = 0 then removeEntryOf c d bank
  else if bank.any (·.isPair c d) then updateEntry ⟨c, d, percent⟩ bank
  else insertEntry ⟨c, d, percent⟩ bank

/-- The feeders a bank gives a circuit, in ascending channel order (R77). -/
def feedersOf (bank : List PatchEntry) (d : Fin 768) : List Feeder :=
  (bank.filter fun e => e.circuit = d).map fun e => ⟨e.channel, e.percent⟩

/-- The live circuit map of a bank: each entry once under its circuit (R77). -/
def mapOf (bank : List PatchEntry) : Table 768 (List Feeder) := Table.tabulate (feedersOf bank)

def State.bank (s : State) (n : Fin 4) : List PatchEntry := s.banks.get n
def State.setBank (s : State) (n : Fin 4) (b : List PatchEntry) : State := { s with banks := s.banks.set n b }

/-! ## Edits (R80 to R85, R92) -/

/-- Circuit `d`'s list in the live circuit map once a PATCH_SET has changed the live bank outside a rebuild (R83): the feeder
removed, changed where it stands, or inserted at its place in ascending channel order. -/
def patchFeeders (c : Fin 512) (percent : Nat) (fs : List Feeder) : List Feeder :=
  if percent = 0 then fs.filter fun f => f.channel ≠ c
  else if fs.any (fun f => f.channel = c) then fs.map fun f => if f.channel = c then ⟨c, percent⟩ else f
  else fs.takeWhile (fun f => f.channel < c) ++ ⟨c, percent⟩ :: fs.dropWhile (fun f => f.channel < c)

/-- The change a taken PATCH_SET makes to bank `n`, and to the live circuit map when that bank is live outside a rebuild
(R82, R83). -/
def State.patch (s : State) (n : Fin 4) (c : Fin 512) (d : Fin 768) (percent : Nat) : State :=
  let live := s.liveBank = n && !s.rebuilding
  let s := s.setBank n (patchBank c d percent (s.bank n))
  if live then { s with liveMap := s.liveMap.modify d (patchFeeders c percent) } else s

/-- PATCH_SET (R80 to R83). -/
def decidePatchSet (l : Link) (body : List Byte) (role : Role) (s : State) : Verdict :=
  match readPatchSet body with
  | none => answer .badField s
  | some f =>
    match deskOf l with
    | none => answer .role s
    | some _ =>
      match numbered 4 f.bank, numbered 512 f.channel, numbered 768 f.circuit with
      | some n, some c, some d =>
        refuseFirst
          [(decide (role ≠ .lead), .notLead),
           (s.rebuilding && (decide (s.liveBank = n) || s.rebuildingBank n), .bankBusy),
           (s.savingBank n, .storeBusy),
           (f.percent ≠ 0 && !((s.bank n).any (·.isPair c d)) && Config.bankEntries ≤ (s.bank n).length, .listFull)] s
          (answer (okOr (decide (100 < f.percent))) (s.patch n c d (min f.percent 100)))
      | _, _, _ => answer .badField s

/-- The tests BANK_CLEAR makes of its bank and BANK_COPY of its destination, in order (R84, R85). -/
def overwriteChecks (s : State) (n : Fin 4) : List (Bool × ResultCode) :=
  [(s.rebuildingBank n, .bankBusy), (decide (s.liveBank = n), .bankLive), (s.savingBank n, .storeBusy)]

/-- BANK_CLEAR (R84). -/
def decideBankClear (l : Link) (body : List Byte) (role : Role) (s : State) : Verdict :=
  match readByte body with
  | none => answer .badField s
  | some k =>
    match deskOf l with
    | none => answer .role s
    | some _ =>
      match numbered 4 k with
      | none => answer .badField s
      | some n => refuseFirst ((decide (role ≠ .lead), .notLead) :: overwriteChecks s n) s (answer .ok (s.setBank n []))

/-- BANK_COPY (R85). -/
def decideBankCopy (l : Link) (body : List Byte) (role : Role) (s : State) : Verdict :=
  match readBytes2 body with
  | none => answer .badField s
  | some (j, k) =>
    match deskOf l with
    | none => answer .role s
    | some _ =>
      match numbered 4 j, numbered 4 k with
      | some m, some n =>
        refuseFirst ((decide (role ≠ .lead), .notLead) :: overwriteChecks s n) s (answer .ok (s.setBank n (s.bank m)))
      | _, _ => answer .badField s

/-- START_BANK (R92). -/
def decideStartBank (l : Link) (body : List Byte) (role : Role) (s : State) : Verdict :=
  match readByte body with
  | none => answer .badField s
  | some k =>
    match deskOf l with
    | none => answer .role s
    | some _ =>
      match numbered 4 k with
      | none => answer .badField s
      | some n =>
        refuseFirst [(decide (role ≠ .lead), .notLead), (s.savingRig, .storeBusy)] s
          (answer .ok (s.setRig { s.rig with startBank := n }))

/-! ## The rebuild (R86 to R88) -/

/-- BANK_SELECT (R86): once taken, it holds the head of its link's queue until the rebuild ends (R157). -/
def decideBankSelect (l : Link) (body : List Byte) (role : Role) (s : State) : Verdict :=
  match readByte body with
  | none => answer .badField s
  | some k =>
    match deskOf l with
    | none => answer .role s
    | some d =>
      match numbered 4 k with
      | none => answer .badField s
      | some n =>
        refuseFirst
          [(decide (role ≠ .lead), .notLead), (s.rebuilding, .bankBusy), (!s.runList.isEmpty, .cuesRunning),
           (s.savingBank n, .storeBusy)] s
          (.hold { s with rebuild := some ⟨n, some d, false⟩ })

/-- The reply to a request whose timed operation has ended, sent on the link that awaits it (R88, R176, R177). -/
def State.answerTimed (s : State) (d : Desk) (code : ResultCode) : State :=
  match (s.port (linkOf d)).head with
  | .timed => s.answerHead (linkOf d) code [] {}
  | _ => s

/-- The end of the rebuild of a cold start: each rack line takes its first frame start, and RESTARTED(COLD) is added (R151,
R179 step 6). -/
def State.firstFrames (s : State) : State :=
  (((s.freshFrame 0).freshFrame 1).freshFrame 2).notifyAll (.restarted .cold)

/-- The end of a rebuild (R88, log 17): the map holds exactly the entries of the rebuilt bank, that bank is live, the flag is clear and
the select, if one awaits it, is answered OK. -/
def State.endRebuild (s : State) : State :=
  match s.rebuild with
  | none => s
  | some r =>
    let s := { s with liveMap := mapOf (s.bank r.bank), liveBank := r.bank, rebuild := none }
    let s := match r.replyTo with
      | some d => s.answerTimed d .ok
      | none => s
    if r.cold then s.firstFrames else s

/-! ## The rows -/

def execPatchSet (link : Link) (tag : Byte) (body : List Byte) (s : State) : Host.Outcome State Fault Refusal :=
  .next (requestRow link ⟨kindPatchSet, tag, body⟩ (decidePatchSet link body) s)

def execBankClear (link : Link) (tag : Byte) (body : List Byte) (s : State) : Host.Outcome State Fault Refusal :=
  .next (requestRow link ⟨kindBankClear, tag, body⟩ (decideBankClear link body) s)

def execBankCopy (link : Link) (tag : Byte) (body : List Byte) (s : State) : Host.Outcome State Fault Refusal :=
  .next (requestRow link ⟨kindBankCopy, tag, body⟩ (decideBankCopy link body) s)

def execBankSelect (link : Link) (tag : Byte) (body : List Byte) (s : State) : Host.Outcome State Fault Refusal :=
  .next (requestRow link ⟨kindBankSelect, tag, body⟩ (decideBankSelect link body) s)

def execStartBank (link : Link) (tag : Byte) (body : List Byte) (s : State) : Host.Outcome State Fault Refusal :=
  .next (requestRow link ⟨kindStartBank, tag, body⟩ (decideStartBank link body) s)

/-- REBUILD_END (R88). -/
def execRebuildEnd (s : State) : Host.Outcome State Fault Refusal := .next (whileRunning s s.endRebuild)

end Sys2Proof.Machine
end

