-- ==== Sys2Proof/Machine/Report.lean ====
section
/-! DEFINITION. STATUS and READ (section 10.5) and the bodies of their replies (R185, R186). -/

namespace Sys2Proof.Machine

/-! ## Bytes of single fields -/

def bit (b : Bool) : Byte := if b then 1 else 0
def deskByte : Desk → Byte
  | .a => 1
  | .b => 2
def linkByte : Link → Byte
  | .a => 1
  | .b => 2
  | .c => 3
def stateByte : LinkState → Byte
  | .silent => 0
  | .live => 1
def resolutionByte : Resolution → Byte
  | .bits8 => 8
  | .bits16 => 16

def fadePhaseByte : FadePhase → Byte
  | .waiting => 1
  | .fading => 2
def flashPhaseByte : FlashPhase → Byte
  | .a => 0
  | .b => 1

/-- One byte per item of a table of four (R185). -/
def flags4 (f : Fin 4 → Bool) : List Byte := List.ofFn fun n : Fin 4 => bit (f n)

/-! ## STATUS (R169, R185) -/

/-- The run entries of a playback in the list (R44). -/
def State.entriesOf (s : State) (p : Fin 4) : Nat := (s.runList.filter fun e => e.playback = p).length

/-- One playback's nine bytes. -/
def State.playbackBytes (s : State) (p : Fin 4) : List Byte :=
  let x := s.playback p
  bytes16 x.currentCue ++ [bit x.held, bit s.frozen] ++ bytes16 x.rate ++ bytes16 x.master ++ [byteOf (s.entriesOf p)]

/-- The save state: 0 none, 1..4 BANK n, 5 RIG. -/
def savingByte : Option Saving → Byte
  | none => 0
  | some ⟨.bank n, _⟩ => byteOf (n.val + 1)
  | some ⟨.rig, _⟩ => 5

/-- The lines a LINE_EDGE carries as the sum of 1, 2, 4 and 8. -/
def lineSum (t : Table 4 Bool) : Byte :=
  byteOf ((t.get 0).toNat + 2 * (t.get 1).toNat + 4 * (t.get 2).toNat + 8 * (t.get 3).toNat)

def restartByte : Option RestartKind → Byte
  | none => 0
  | some .cold => 1
  | some .dip => 2

/-- The thirteen notice bytes of a STATUS reply (R185). -/
def Notices.bytes (x : Notices) : List Byte :=
  [bit x.failover, bit x.leadTaken, bit x.forced, bit x.backLost, bit x.followLapsed, bit x.diverged, bit x.lawFault,
   lineSum x.lineEdge, bit x.overrun, restartByte x.restarted, bit x.saveLost, bit x.bankLost, bit x.rigLost]

/-- The body of the STATUS reply to link `l` (R185). -/
def State.statusBody (s : State) (l : Link) : List Byte :=
  [(s.lead.map deskByte).getD 0, stateByte s.ports.a.state, stateByte s.ports.b.state, stateByte s.ports.c.state]
    ++ s.playbackBytes 0 ++ s.playbackBytes 1 ++ s.playbackBytes 2 ++ s.playbackBytes 3
    ++ bytes16 s.grand ++ [bit s.blackout]
    ++ bytes16 (s.rack 0).lit ++ bytes16 (s.rack 1).lit ++ bytes16 (s.rack 2).lit
    ++ [byteOf (s.liveBank.val + 1), bit s.rebuilding, savingByte s.saving]
    ++ flags4 s.asserted ++ flags4 s.raised
    ++ bytes16 s.freeMoves ++ bytes16 s.freePairs ++ bytes16 s.lawFaults
    ++ (s.port l).notices.bytes

/-- STATUS (R169): OK in any role; the reply carries the link's notices as they stand (R168). -/
def decideStatus (l : Link) (body : List Byte) (_role : Role) (s : State) : Verdict :=
  match readNothing body with
  | none => answer .badField s
  | some _ => .reply .ok (s.statusBody l) (s.port l).notices s

/-! ## READ (R170, R186) -/

/-- The `m` indices from `first` onward, where they all lie below `n`. -/
def span (n first m : Nat) : List (Fin n) := (List.range m).filterMap fun j => indexed n (first + j)

/-- One channel record's sixteen bytes. -/
def ChannelRecord.bytes (r : ChannelRecord) : List Byte :=
  match r.own with
  | none => bytes16 r.level ++ [0, 0xFF] ++ bytes16 0 ++ bytes16 0 ++ bytes32 0 ++ bytes32 0
  | some o => bytes16 r.level ++ [fadePhaseByte o.phase, byteOf o.owner.val]
      ++ bytes16 o.start ++ bytes16 o.target ++ bytes32 o.delay ++ bytes32 o.time

/-- Page CHANNELS. -/
def State.channelsPage (s : State) (p : Fin 4) (first : Nat) : List Byte :=
  [1, byteOf (p.val + 1)] ++ bytes16 first ++ (span 512 (first - 1) 64).flatMap fun c => (s.channel p c).bytes

def startedByte : StartedBy → Byte
  | .desk d => deskByte d
  | .follow => 3

/-- One run entry's eighteen bytes. -/
def RunEntry.bytes (e : RunEntry) : List Byte :=
  let (kind, slot, cue) : Byte × Byte × Nat := match e.kind with
    | .cue t c _ => (0, byteOf t.val, c)
    | .back c _ => (1, 0xFF, c)
    | .release => (2, 0xFF, 65535)
    | .manual => (3, 0xFF, 65535)
  let (fslot, due) : Byte × Nat := match e.follow with
    | some f => (byteOf f.slot.val, f.due)
    | none => (0xFF, 0)
  [byteOf e.number.val, kind, byteOf (e.playback.val + 1), slot] ++ bytes16 cue ++ bytes32 e.clock ++ bytes16 e.owned
    ++ [fslot] ++ bytes32 due ++ [startedByte e.startedBy]

/-- Page RUN_LIST. -/
def State.runListPage (s : State) : List Byte := [2, byteOf s.runList.length] ++ s.runList.flatMap RunEntry.bytes

/-- One slot summary's eight bytes. -/
def Slot.bytes : Slot → List Byte
  | .empty => 0 :: (bytes16 65535 ++ bytes16 65535 ++ bytes16 65535 ++ [0xFF])
  | .filling h ms d => 1 :: (bytes16 h.cue ++ bytes16 h.declared ++ bytes16 ms.length ++ [deskByte d])
  | .ready h _ => 2 :: (bytes16 h.cue ++ bytes16 h.declared ++ bytes16 65535 ++ [0xFF])
  | .running h _ => 3 :: (bytes16 h.cue ++ bytes16 h.declared ++ bytes16 65535 ++ [0xFF])

/-- Page SLOTS. -/
def State.slotsPage (s : State) : List Byte := 3 :: s.slots.cells.flatMap Slot.bytes

/-- One park's eleven bytes. -/
def Park.bytes (x : Park) : List Byte :=
  match x.flash with
  | none => bytes16 (x.circuit.val + 1) ++ [0] ++ bytes16 x.levelA ++ bytes16 0 ++ [0xFF, 0xFF, 0xFF, linkByte x.owner]
  | some f => bytes16 (x.circuit.val + 1) ++ [1] ++ bytes16 x.levelA ++ bytes16 f.levelB
      ++ [byteOf f.onTime, byteOf f.offTime, flashPhaseByte f.phase, linkByte x.owner]

/-- Page PARKS. -/
def State.parksPage (s : State) (first : Nat) : List Byte :=
  let carried := s.parks.drop first
  [4, byteOf s.parks.length, byteOf first, byteOf carried.length] ++ carried.flatMap Park.bytes

/-- The output level of a circuit in the last frame of its line, 0 while that frame is absent (R153). -/
def State.sentLevel (s : State) (c : Fin 768) : Nat :=
  match (s.rack ⟨c.val / 256, by omega⟩).last with
  | some f => f.levels.get ⟨c.val % 256, by omega⟩
  | none => 0

/-- What page OUTPUTS carries of one rack line: the resolution of its last frame and the absent mark, both 0 when the page does
not touch the line. -/
def State.rackMark (s : State) (first : Nat) (k : Fin 3) : List Byte :=
  if (first - 1) / 256 ≤ k.val ∧ k.val ≤ (first + 62) / 256 then
    match (s.rack k).last with
    | some f => [resolutionByte f.resolution, 0]
    | none => [0, 1]
  else [0, 0]

/-- Page OUTPUTS. -/
def State.outputsPage (s : State) (first : Nat) : List Byte :=
  [5] ++ bytes16 first ++ s.rackMark first 0 ++ s.rackMark first 1 ++ s.rackMark first 2
    ++ (span 768 (first - 1) 64).flatMap fun c => bytes16 (s.sentLevel c)

/-- One patch entry's five bytes. -/
def PatchEntry.bytes (e : PatchEntry) : List Byte :=
  bytes16 (e.channel.val + 1) ++ bytes16 (e.circuit.val + 1) ++ [byteOf e.percent]

/-- Page PATCH. -/
def State.patchPage (s : State) (n : Fin 4) (first : Nat) : List Byte :=
  let carried := ((s.bank n).drop first).take 32
  [6, byteOf (n.val + 1)] ++ bytes16 first ++ bytes16 (s.bank n).length ++ [byteOf carried.length]
    ++ carried.flatMap PatchEntry.bytes

/-- One profile's seven bytes. -/
def profileBytes (laws : List Points) (f : Profile) : List Byte :=
  [byteOf f.page, byteOf f.index] ++ bytes16 f.preheat ++ bytes16 f.topSet ++ [bit (undefinedLaw laws f)]

/-- Page PROFILES. -/
def State.profilesPage (s : State) (first : Nat) : List Byte :=
  [7] ++ bytes16 first ++ [byteOf s.rig.laws.length]
    ++ (span 768 (first - 1) 32).flatMap fun c => profileBytes s.rig.laws (s.rig.profiles.get c)

/-- Page RESTORE, the stack from the top down. -/
def State.restorePage (s : State) (p : Fin 4) : List Byte :=
  let st := (s.playback p).stack
  [8, byteOf (p.val + 1), byteOf st.length] ++ st.flatMap fun r => bytes16 r.priorCue ++ bytes16 r.pairs.length

/-- A number within a range. -/
def within (lo hi n : Nat) : Bool := lo ≤ n && n ≤ hi

/-- The body of a READ reply; `none` for an unknown page, or a selector or first index outside its range (R170). -/
def State.readPage (s : State) (f : ReadFields) : Option (List Byte) :=
  match f.page with
  | 1 => if within 1 449 f.first then (numbered 4 f.selector).map fun p => s.channelsPage p f.first else none
  | 2 => some s.runListPage
  | 3 => some s.slotsPage
  | 4 => if within 0 63 f.first then some (s.parksPage f.first) else none
  | 5 => if within 1 705 f.first then some (s.outputsPage f.first) else none
  | 6 => if within 0 1023 f.first then (numbered 4 f.selector).map fun n => s.patchPage n f.first else none
  | 7 => if within 1 737 f.first then some (s.profilesPage f.first) else none
  | 8 => (numbered 4 f.first).map s.restorePage
  | _ => none

/-- READ (R170): taken in any role; it changes nothing. -/
def decideRead (_l : Link) (body : List Byte) (_role : Role) (s : State) : Verdict :=
  match readRead body with
  | none => answer .badField s
  | some f =>
    match s.readPage f with
    | none => answer .badField s
    | some page => .reply .ok page {} s

/-! ## The rows -/

def execStatus (link : Link) (tag : Byte) (body : List Byte) (s : State) : Host.Outcome State Fault Refusal :=
  .next (requestRow link ⟨kindStatus, tag, body⟩ (decideStatus link body) s)

def execRead (link : Link) (tag : Byte) (body : List Byte) (s : State) : Host.Outcome State Fault Refusal :=
  .next (requestRow link ⟨kindRead, tag, body⟩ (decideRead link body) s)

end Sys2Proof.Machine
end

