-- ==== Sys2Proof/Machine/Cue.lean ====
section
/-! DEFINITION. The cue store (chapter 1): the fill records, the reservation rule and the loading requests CUE_OPEN, CUE_MOVES,
CUE_CLOSE and CUE_DROP. -/

namespace Sys2Proof.Machine

/-! ## Fill records (R4) -/

/-- A desk link's fill record. -/
def State.fill (s : State) (d : Desk) : Option Fill := (s.port (linkOf d)).fill

/-- A desk link's fill record set. -/
def State.setFill (s : State) (d : Desk) (f : Option Fill) : State := s.modPort (linkOf d) fun p => { p with fill := f }

/-- A fill record once slot `t` has become EMPTY: a record naming it, in either mode, is cleared (R4). -/
def fillAfterEmpty (t : Fin 32) : Option Fill → Option Fill
  | some f => if f.slot = t then none else some f
  | none => none

/-- A fill record once slot `t` has taken content of cue number `cue`: the displaced filler loses its fill, and an
ABSORBING record stays only if the cue number it absorbed has not changed (R4, R9, R11). -/
def fillAfterReplace (t : Fin 32) (cue : Nat) : Option Fill → Option Fill
  | some f => if f.slot = t ∧ f.mode ≠ .absorbing cue then none else some f
  | none => none

/-- Slot `t` becomes EMPTY: its content is discarded, its reservation freed (R3) and every fill record naming it cleared. -/
def State.emptySlot (s : State) (t : Fin 32) : State :=
  let s := s.setSlot t .empty
  let s := s.setFill .a (fillAfterEmpty t (s.fill .a))
  s.setFill .b (fillAfterEmpty t (s.fill .b))

/-- Slot `t` becomes FILLING with a header, no moves and desk `d` as filler, whatever it held; the sender's fill record names it
in mode FILLING (R8, R9, R11, R12). -/
def State.startFill (s : State) (d : Desk) (t : Fin 32) (h : CueHeader) : State :=
  let s := s.setSlot t (.filling h [] d)
  let s := s.setFill .a (fillAfterReplace t h.cue (s.fill .a))
  let s := s.setFill .b (fillAfterReplace t h.cue (s.fill .b))
  s.setFill d (some ⟨t, .filling⟩)

/-- The sender's fill record dealt with before the named slot is decided: its FILLING slot becomes EMPTY, an ABSORBING record
is cleared (R7), as at the expiry of its link's monitor (R19). -/
def State.endFill (s : State) (d : Desk) : State :=
  match s.fill d with
  | some ⟨t, .filling⟩ => (s.emptySlot t).setFill d none
  | some ⟨_, .absorbing _⟩ => s.setFill d none
  | none => s

/-- The sender absorbs slot `t` under cue number `cue`: its fill record is set and the reply is ECHO (R9, R12, R13, R14). -/
def absorb (d : Desk) (t : Fin 32) (cue : Nat) (s : State) : Verdict :=
  answer .echo (s.setFill d (some ⟨t, .absorbing cue⟩))

/-! ## CUE_OPEN (R6 to R14) -/

/-- The header a CUE_OPEN that has passed the field checks carries, each time held to 9999 (R6). -/
def CueOpenFields.header (f : CueOpenFields) (follow : Option CueFollow) : CueHeader where
  cue := f.cue
  upTime := clampTenths f.upTime
  downTime := clampTenths f.downTime
  upDelay := clampTenths f.upDelay
  downDelay := clampTenths f.downDelay
  follow := follow
  declared := f.declared

/-- Whether R6 clamps a value of the request. -/
def CueOpenFields.clamped (f : CueOpenFields) : Bool :=
  tenthsOver f.upTime || tenthsOver f.downTime || tenthsOver f.upDelay || tenthsOver f.downDelay ||
    (match f.follow with
     | some (_, n) => tenthsOver n
     | none => false)

/-- The follow of a CUE_OPEN, its slot checked: `none` where the follow slot lies above 31 (R6). -/
def CueOpenFields.readFollow (f : CueOpenFields) : Option (Option CueFollow) :=
  match f.follow with
  | none => some none
  | some (t, n) => (indexed 32 t).map fun t => some ⟨t, clampTenths n⟩

/-- The replacement of content that reserves `displaced` entries, under the reservation rule of R11. -/
def replaceSlot (d : Desk) (t : Fin 32) (h : CueHeader) (displaced : Nat) (code : ResultCode) (s : State) : Verdict :=
  if s.freeMoves + displaced < h.declared then answer .storeFull s else answer code (s.startFill d t h)

/-- A CUE_OPEN that names another cue number than a READY or FILLING slot holds (R10, R12). -/
def divergedOpen (d : Desk) (lead : Bool) (t : Fin 32) (h : CueHeader) (displaced : Nat) (code : ResultCode) (s : State) :
    Verdict :=
  let s := s.notifyDesks .diverged
  if lead then replaceSlot d t h displaced code s else answer .notLead s

/-- A CUE_OPEN decided by the state of the named slot (R8 to R13). -/
def openSlot (d : Desk) (lead : Bool) (t : Fin 32) (h : CueHeader) (code : ResultCode) (s : State) : Verdict :=
  match s.slot t with
  | .empty => if s.freeMoves < h.declared then answer .storeFull s else answer code (s.startFill d t h)
  | .ready old _ =>
    if old.cue = h.cue then
      if lead then replaceSlot d t h old.declared code s else absorb d t old.cue s
    else divergedOpen d lead t h old.declared code s
  | .filling old _ _ =>
    if old.cue = h.cue then absorb d t old.cue s else divergedOpen d lead t h old.declared code s
  | .running old _ =>
    if !lead && old.cue = h.cue then absorb d t old.cue s else answer .slotRunning s

/-- CUE_OPEN (R6): ROLE from link C, the field checks, then the sender's fill (R7) and the named slot. -/
def decideCueOpen (l : Link) (body : List Byte) (role : Role) (s : State) : Verdict :=
  match readCueOpen body with
  | none => answer .badField s
  | some f =>
    match deskOf l with
    | none => answer .role s
    | some d =>
      match indexed 32 f.slot, f.readFollow with
      | some t, some follow =>
        if f.cue = 0 ∨ Config.lastCue < f.cue ∨ f.declared = 0 ∨ Config.declaredMoves < f.declared then answer .badField s
        else openSlot d (role = .lead) t (f.header follow) (okOr f.clamped) (s.endFill d)
      | _, _ => answer .badField s

/-! ## CUE_MOVES (R15) -/

/-- The moves of a batch with their channels checked and their own times held to 9999; `none` where a channel is 0 or above
512. -/
def checkMoves : List MoveFields → Option (List Move)
  | [] => some []
  | m :: rest =>
    match numbered 512 m.channel, checkMoves rest with
    | some c, some ms => some (⟨c, m.target, m.ownTime.map clampTenths, m.ownDelay.map clampTenths⟩ :: ms)
    | _, _ => none

/-- Whether R15 clamps an own time or own delay of the batch. -/
def movesClamped (ms : List MoveFields) : Bool :=
  ms.any fun m => (m.ownTime.any tenthsOver) || (m.ownDelay.any tenthsOver)

/-- Whether a channel is named twice within a batch, or by the batch and by a move already held. -/
def channelTwice (held : List Move) : List Move → Bool
  | [] => false
  | m :: rest => (held ++ rest).any (·.channel = m.channel) || channelTwice held rest

/-- Whether the sender's fill record names slot number `t` in mode ABSORBING. -/
def absorbing (s : State) (d : Desk) (t : Nat) : Bool :=
  match s.fill d with
  | some ⟨u, .absorbing _⟩ => u.val = t
  | _ => false

/-- CUE_MOVES: taken whole or refused whole, the checks in the order of R15. -/
def decideCueMoves (l : Link) (body : List Byte) (_role : Role) (s : State) : Verdict :=
  match readCueMoves body with
  | none => answer .badField s
  | some (slot, batch) =>
    match deskOf l with
    | none => answer .role s
    | some d =>
      if absorbing s d slot then answer .echo s
      else
        match indexed 32 slot, checkMoves batch with
        | some t, some ms =>
          if ms.length = 0 ∨ Config.batchEntries < ms.length then answer .badField s
          else
            match s.slot t with
            | .filling h held filler =>
              if filler ≠ d then answer .slotState s
              else if channelTwice held ms then answer .badField s
              else if h.declared < held.length + ms.length then answer .countMismatch s
              else answer (okOr (movesClamped batch)) (s.setSlot t (.filling h (held ++ ms) filler))
            | _ => answer .slotState s
        | _, _ => answer .badField s

/-! ## CUE_CLOSE (R16) -/

/-- CUE_CLOSE: the slot becomes READY if the counts agree and EMPTY if they do not. -/
def decideCueClose (l : Link) (body : List Byte) (_role : Role) (s : State) : Verdict :=
  match readByte body with
  | none => answer .badField s
  | some slot =>
    match deskOf l with
    | none => answer .role s
    | some d =>
      if absorbing s d slot then answer .echo (s.setFill d none)
      else
        match indexed 32 slot with
        | none => answer .badField s
        | some t =>
          match s.slot t with
          | .filling h held filler =>
            if filler ≠ d then answer .slotState s
            else if held.length = h.declared then answer .ok ((s.setSlot t (.ready h held)).setFill d none)
            else answer .countMismatch (s.emptySlot t)
          | _ => answer .slotState s

/-! ## CUE_DROP (R18) -/

/-- CUE_DROP: the lead empties a slot that is not RUNNING, the shadow only its own fill. -/
def decideCueDrop (l : Link) (body : List Byte) (role : Role) (s : State) : Verdict :=
  match readByte body with
  | none => answer .badField s
  | some slot =>
    match deskOf l with
    | none => answer .role s
    | some d =>
      match indexed 32 slot with
      | none => answer .badField s
      | some t =>
        match s.slot t with
        | .empty => if role = .lead then answer .ok s else answer .notLead s
        | .filling _ _ filler => if role = .lead ∨ filler = d then answer .ok (s.emptySlot t) else answer .notLead s
        | .ready _ _ => if role = .lead then answer .ok (s.emptySlot t) else answer .notLead s
        | .running _ _ => if role = .lead then answer .slotRunning s else answer .notLead s

/-! ## The rows -/

def execCueOpen (link : Link) (tag : Byte) (body : List Byte) (s : State) : Host.Outcome State Fault Refusal :=
  .next (requestRow link ⟨kindCueOpen, tag, body⟩ (decideCueOpen link body) s)

def execCueMoves (link : Link) (tag : Byte) (body : List Byte) (s : State) : Host.Outcome State Fault Refusal :=
  .next (requestRow link ⟨kindCueMoves, tag, body⟩ (decideCueMoves link body) s)

def execCueClose (link : Link) (tag : Byte) (body : List Byte) (s : State) : Host.Outcome State Fault Refusal :=
  .next (requestRow link ⟨kindCueClose, tag, body⟩ (decideCueClose link body) s)

def execCueDrop (link : Link) (tag : Byte) (body : List Byte) (s : State) : Host.Outcome State Fault Refusal :=
  .next (requestRow link ⟨kindCueDrop, tag, body⟩ (decideCueDrop link body) s)

end Sys2Proof.Machine
end

