-- ==== Sys2Proof/Machine/Parking.lean ====
section
/-! DEFINITION. The park unit (chapter 7): PARK, FLASH, NUDGE, UNPARK and the flash timers. -/

namespace Sys2Proof.Machine

def State.setParks (s : State) (ps : List Park) : State := { s with parks := ps }

/-- Whether circuit `c` is parked. -/
def State.isParked (s : State) (c : Fin 768) : Bool := s.parks.any fun x => x.circuit = c

/-- `f` applied to the park of circuit `c`, its place in the list kept (R111). -/
def State.modPark (s : State) (c : Fin 768) (f : Park → Park) : State :=
  s.setParks (s.parks.map fun x => if x.circuit = c then f x else x)

/-- A park set: the entry of its circuit updated in place, or the park added at the end; PARK_FULL for a new circuit at a full
list (R114, R115). -/
def setPark (x : Park) (code : ResultCode) (s : State) : Verdict :=
  if s.isParked x.circuit then answer code (s.modPark x.circuit fun _ => x)
  else if s.parks.length < Config.parkEntries then answer code (s.setParks (s.parks ++ [x]))
  else answer .parkFull s

/-- PARK (R113, R114). -/
def decidePark (l : Link) (body : List Byte) (role : Role) (s : State) : Verdict :=
  match readWords2 body with
  | none => answer .badField s
  | some (k, level) =>
    match numbered 768 k with
    | none => answer .badField s
    | some c => if role = .shadow then answer .notLead s else setPark ⟨c, level, none, l⟩ .ok s

/-- A flash time as it stands in an entry: 0 is clamped to 1 (R115). -/
def flashTime (n : Nat) : Nat := max 1 n

/-- The run of a flash timer, in ms (R111, R116). -/
def flashMs (n : Nat) : Nat := n * Config.flashUnitMs

/-- The FLASH entry a request sets: phase A, its timer started with the on time (R115). -/
def flashPark (c : Fin 768) (f : FlashFields) (l : Link) : Park :=
  ⟨c, f.levelA, some ⟨f.levelB, flashTime f.onTime, flashTime f.offTime, .a, flashMs (flashTime f.onTime)⟩, l⟩

/-- FLASH (R113, R115). -/
def decideFlash (l : Link) (body : List Byte) (role : Role) (s : State) : Verdict :=
  match readFlash body with
  | none => answer .badField s
  | some f =>
    match numbered 768 f.circuit with
    | none => answer .badField s
    | some c =>
      if role = .shadow then answer .notLead s
      else setPark (flashPark c f l) (okOr (f.onTime = 0 || f.offTime = 0)) s

/-- Level A moved by a signed delta of 256 level units, held to 0..65535 (R117). -/
def nudged (level : Nat) (delta : Int) : Nat := (min 65535 (max 0 ((level : Int) + delta * 256))).toNat

/-- Whether a nudge saturates (R117). -/
def nudgeSaturates (level : Nat) (delta : Int) : Bool := (level : Int) + delta * 256 < 0 || 65535 < (level : Int) + delta * 256

/-- NUDGE (R113, R117). -/
def decideNudge (l : Link) (body : List Byte) (role : Role) (s : State) : Verdict :=
  match readWordByte body with
  | none => answer .badField s
  | some (k, b) =>
    match numbered 768 k with
    | none => answer .badField s
    | some c =>
      if role = .shadow then answer .notLead s
      else
        match s.parks.find? fun x => x.circuit = c with
        | none => answer .badField s
        | some x =>
          answer (okOr (nudgeSaturates x.levelA b.toInt))
            (s.modPark c fun y => { y with levelA := nudged y.levelA b.toInt, owner := l })

/-- The parks of an owner removed, the others keeping their order (R118, R119). -/
def State.dropOwner (s : State) (l : Link) : State := s.setParks (s.parks.filter fun x => x.owner ≠ l)

/-- UNPARK (R113, R118): 0 removes every park the sender owns. -/
def decideUnpark (l : Link) (body : List Byte) (role : Role) (s : State) : Verdict :=
  match readWord body with
  | none => answer .badField s
  | some k =>
    if 768 < k then answer .badField s
    else if role = .shadow then answer .notLead s
    else
      match numbered 768 k with
      | none => answer .ok (s.dropOwner l)
      | some c => answer .ok (s.setParks (s.parks.filter fun x => x.circuit ≠ c))

/-- A flashing park at the expiry of its timer: the phase toggles and the timer restarts with the time of the new phase
(R116). -/
def Flashing.toggle (f : Flashing) : Flashing :=
  match f.phase with
  | .a => { f with phase := .b, timer := flashMs f.offTime }
  | .b => { f with phase := .a, timer := flashMs f.onTime }

/-- The expiry of the flash timer of circuit `c`'s park; a STEADY park and an unparked circuit have no timer (R116). -/
def State.flashExpiry (s : State) (c : Fin 768) : State := s.modPark c fun x => { x with flash := x.flash.map Flashing.toggle }

/-! ## The rows -/

def execPark (link : Link) (tag : Byte) (body : List Byte) (s : State) : Host.Outcome State Fault Refusal :=
  .next (requestRow link ⟨kindPark, tag, body⟩ (decidePark link body) s)

def execFlash (link : Link) (tag : Byte) (body : List Byte) (s : State) : Host.Outcome State Fault Refusal :=
  .next (requestRow link ⟨kindFlash, tag, body⟩ (decideFlash link body) s)

def execNudge (link : Link) (tag : Byte) (body : List Byte) (s : State) : Host.Outcome State Fault Refusal :=
  .next (requestRow link ⟨kindNudge, tag, body⟩ (decideNudge link body) s)

def execUnpark (link : Link) (tag : Byte) (body : List Byte) (s : State) : Host.Outcome State Fault Refusal :=
  .next (requestRow link ⟨kindUnpark, tag, body⟩ (decideUnpark link body) s)

/-- FLASH_TIMER_EXPIRY (R116). -/
def execFlashTimerExpiry (circuit : Fin 768) (s : State) : Host.Outcome State Fault Refusal :=
  .next (whileRunning s (s.flashExpiry circuit))

end Sys2Proof.Machine
end

