-- ==== Sys2Proof/Machine/Lead.lean ====
section
/-! DEFINITION. Lead control and the silence monitors (sections 10.2 and 10.3): TAKE_LEAD, YIELD_LEAD, LINK_SETUP and
SILENCE_MONITOR_EXPIRY. -/

namespace Sys2Proof.Machine

def State.setLead (s : State) (d : Option Desk) : State := { s with lead := d }

/-- TAKE_LEAD (R163). -/
def decideTakeLead (l : Link) (body : List Byte) (_role : Role) (s : State) : Verdict :=
  match readByte body with
  | none => answer .badField s
  | some k =>
    match deskOf l with
    | none => answer .role s
    | some d =>
      match switchValue k with
      | none => answer .badField s
      | some force =>
        if s.lead = some d then answer .ok s
        else if s.lead = none then answer .ok (s.setLead (some d))
        else if force then answer .ok ((s.setLead (some d)).notifyDesks .leadTaken)
        else answer .leadHeld s

/-- YIELD_LEAD (R164). -/
def decideYieldLead (_l : Link) (body : List Byte) (role : Role) (s : State) : Verdict :=
  match readNothing body with
  | none => answer .badField s
  | some _ =>
    match role with
    | .remote => answer .role s
    | .shadow => answer .notLead s
    | .lead => answer .ok (s.setLead none)

/-- A silence limit held to 1..63 (R161). -/
def clampLimit (n : Nat) : Nat := clampTo 1 63 n

/-- The monitor of a LIVE link restarted at its full limit (R161, R181). -/
def Port.restartMonitor (ms : Nat) (p : Port) : Port := if p.state = .live then { p with monitor := some ms } else p

/-- The monitors of all LIVE links restarted at their links' full limits. -/
def State.restartMonitors (s : State) : State :=
  { s with ports := ⟨s.ports.a.restartMonitor (s.limitMs .a), s.ports.b.restartMonitor (s.limitMs .b),
                     s.ports.c.restartMonitor (s.limitMs .c)⟩ }

/-- LINK_SETUP (R161). -/
def decideLinkSetup (l : Link) (body : List Byte) (role : Role) (s : State) : Verdict :=
  match readLinkSetup body with
  | none => answer .badField s
  | some f =>
    match deskOf l with
    | none => answer .role s
    | some _ =>
      match switchValue f.failover with
      | none => answer .badField s
      | some failover =>
        refuseFirst [(decide (role ≠ .lead), .notLead), (s.savingRig, .storeBusy)] s
          (answer (okOr (decide (clampLimit f.limitA ≠ f.limitA) || decide (clampLimit f.limitB ≠ f.limitB) ||
              decide (clampLimit f.limitC ≠ f.limitC)))
            (s.setRig { s.rig with
              linkSetup := ⟨clampLimit f.limitA, clampLimit f.limitB, clampLimit f.limitC, failover⟩ }).restartMonitors)

/-- A port whose monitor has expired: SILENT, its untaken requests discarded; a request at the head that has been taken stays
(R160). -/
def Port.fallSilent (p : Port) : Port :=
  { p with state := .silent, monitor := none, queue := if p.head = .untaken then [] else p.queue.take 1 }

/-- Lead control at the expiry of desk `d`'s monitor: if `d` leads, the lead passes to the other desk when failover is ON and its
link is LIVE, and becomes NONE otherwise (R165). -/
def State.leadSilent (s : State) (d : Desk) : State :=
  if s.lead ≠ some d then s
  else if s.rig.linkSetup.failover && (s.port (linkOf (otherDesk d))).state = .live then
    (s.setLead (some (otherDesk d))).notifyAll .failover
  else s.setLead none

/-- The expiry of a LIVE link's silence monitor (R160): the port, then lead control and the cue store for a desk, the park unit
for the remote (R165, R19, R119). -/
def State.silence (s : State) (l : Link) : State :=
  if (s.port l).state = .silent then s
  else
    let s := s.modPort l Port.fallSilent
    match deskOf l with
    | some d => (s.leadSilent d).endFill d
    | none => s.dropOwner .c

/-! ## The rows -/

def execTakeLead (link : Link) (tag : Byte) (body : List Byte) (s : State) : Host.Outcome State Fault Refusal :=
  .next (requestRow link ⟨kindTakeLead, tag, body⟩ (decideTakeLead link body) s)

def execYieldLead (link : Link) (tag : Byte) (body : List Byte) (s : State) : Host.Outcome State Fault Refusal :=
  .next (requestRow link ⟨kindYieldLead, tag, body⟩ (decideYieldLead link body) s)

def execLinkSetup (link : Link) (tag : Byte) (body : List Byte) (s : State) : Host.Outcome State Fault Refusal :=
  .next (requestRow link ⟨kindLinkSetup, tag, body⟩ (decideLinkSetup link body) s)

/-- SILENCE_MONITOR_EXPIRY (R160). -/
def execSilenceMonitorExpiry (link : Link) (s : State) : Host.Outcome State Fault Refusal :=
  .next (whileRunning s (s.silence link))

end Sys2Proof.Machine
end

