-- ==== Sys2Proof/Machine/Store.lean ====
section
/-! DEFINITION. The store's rows (section 11.2): SAVE, SAVE_END and SAVE_WRITE_FAILURE. -/

namespace Sys2Proof.Machine

/-- The class a SAVE names; the bank number is examined only with class BANK (R174, R184). -/
def saveClass (cls n : Nat) : Option SaveClass :=
  if cls = 0 then (numbered 4 n).map .bank else if cls = 1 then some .rig else none

/-- The stored item of a class INVALID, its content as it was and no longer used (R175, R181). -/
def State.invalidate (s : State) : SaveClass → State
  | .bank n => { s with storedBanks := s.storedBanks.set n { s.storedBanks.get n with valid := false } }
  | .rig => { s with storedRig := { s.storedRig with valid := false } }

/-- The stored item of a class VALID with the working copy as its content (R176, log 19). While the save runs the working copy cannot
change (R175), so this is the content the save began with. -/
def State.storeWorking (s : State) : SaveClass → State
  | .bank n => { s with storedBanks := s.storedBanks.set n ⟨true, s.bank n⟩ }
  | .rig => { s with storedRig := ⟨true, s.rig⟩ }

/-- SAVE (R174, R175): once taken, it holds the head of its link's queue until the write ends. -/
def decideSave (l : Link) (body : List Byte) (role : Role) (s : State) : Verdict :=
  match readBytes2 body with
  | none => answer .badField s
  | some (k, n) =>
    match deskOf l with
    | none => answer .role s
    | some d =>
      match saveClass k n with
      | none => answer .badField s
      | some cls =>
        refuseFirst [(decide (role ≠ .lead), .notLead), (s.saving.isSome, .storeBusy)] s
          (.hold { s.invalidate cls with saving := some ⟨cls, d⟩ })

/-- The end of a save that wrote without fault (R176). -/
def State.saveEnd (s : State) : State :=
  match s.saving with
  | none => s
  | some x => ({ s.storeWorking x.cls with saving := none }).answerTimed x.link .ok

/-- The failure of a save's write (R177): the item stays INVALID. -/
def State.saveFailure (s : State) : State :=
  match s.saving with
  | none => s
  | some x => ({ s.invalidate x.cls with saving := none }).answerTimed x.link .storeFault

def execSave (link : Link) (tag : Byte) (body : List Byte) (s : State) : Host.Outcome State Fault Refusal :=
  .next (requestRow link ⟨kindSave, tag, body⟩ (decideSave link body) s)

/-- SAVE_END (R176). -/
def execSaveEnd (s : State) : Host.Outcome State Fault Refusal := .next (whileRunning s s.saveEnd)

/-- SAVE_WRITE_FAILURE (R177). -/
def execSaveWriteFailure (s : State) : Host.Outcome State Fault Refusal := .next (whileRunning s s.saveFailure)

end Sys2Proof.Machine
end

