-- ==== Sys2Proof/Machine/Restart.lean ====
section
/-! DEFINITION. RESET, the cold start and the supply dip (sections 11.3 and 11.4): RESET_ASSERT, COLD_START, SUPPLY_DIP and
DIP_RESTART. -/

namespace Sys2Proof.Machine

/-- The working rig record a cold start loads: the stored one, or the defaults when it is INVALID (R179 step 2). -/
def State.loadedRig (s : State) : RigRecord := if s.storedRig.valid then s.storedRig.content else RigRecord.default

/-- The working bank a cold start loads: the stored one, or no entries when it is INVALID (R179 step 3). -/
def State.loadedBank (s : State) (n : Fin 4) : List PatchEntry :=
  let x := s.storedBanks.get n
  if x.valid then x.content else []

/-- The notices a cold start's loading calls for, in sets it has emptied (R179 steps 1 to 4). -/
def State.coldNotices (s : State) : Notices :=
  { rigLost := !s.storedRig.valid
    bankLost := s.storedBanks.cells.any fun x => !x.valid
    lawFault := countLawFaults s.loadedRig ≠ 0 }

/-- A stage line after a cold start: UNSETTLED, its timer started on the level the lead shows (R124). -/
def StageLine.cold (debounce : Nat) (input : LineLevel) : StageLine := ⟨input, none, some ⟨input, debounce⟩⟩

/-- Steps 1 to 5 of the cold start (R179). Of the state before, only the stored items, the levels of the stage line leads and the
commands that wait come through. -/
def State.coldStart (s : State) : State :=
  let rig := s.loadedRig
  let port := Port.cold s.coldNotices
  { power := .running
    ports := ⟨port, port, port⟩
    lead := none
    slots := Table.fill 32 .empty
    playbacks := Table.fill 4 Playback.cold
    channels := Table.fill 4 (Table.fill 512 ChannelRecord.cold)
    runList := []
    births := 0
    banks := Table.tabulate s.loadedBank
    liveBank := rig.startBank
    liveMap := Table.fill 768 []
    rebuild := some ⟨rig.startBank, none, true⟩
    rig := rig
    lawFaults := countLawFaults rig
    parks := []
    stage := Table.tabulate fun n => StageLine.cold (rig.lines.get n).debounce (s.stage.get n).input
    deskRaised := Table.fill 4 false
    grand := Config.full
    blackout := false
    racks := Table.fill 3 RackLine.cold
    storedBanks := s.storedBanks
    storedRig := s.storedRig
    saving := none
    pending := s.pending }

/-- The part held in reset by its RESET line (R178, R180): the working state is lost (its fields stand at `State.reset`'s values
until the cold start, which reads none of them, log 4); the stored items and the levels of the stage line leads stay (log 23). -/
def State.assertReset (s : State) : State :=
  { State.reset with
    power := .held
    ports := ⟨Port.cold {}, Port.cold {}, Port.cold {}⟩
    rebuild := none
    stage := s.stage.map fun x => ⟨x.input, none, none⟩
    storedBanks := s.storedBanks
    storedRig := s.storedRig
    pending := s.pending }

/-- A rack line that holds its idle condition (R180, R187). -/
def RackLine.idle (x : RackLine) : RackLine := { x with sent := [] }

/-- The core supply of a running part, whose RESET line is high, falls below its range (R180): the part stops with its working
state held. -/
def State.dip (s : State) : State := { s with power := .dipped .high, racks := s.racks.map RackLine.idle }

/-- A port after a DIP restart (R159, R181): the queue empty, the receiver HUNTING, the rest kept. -/
def Port.dipRestart (p : Port) : Port := { p with receiver := .hunting, queue := [], head := .untaken }

/-- A stage line after a DIP restart (R124): the timer starts afresh on the level the lead shows, and stops at once if that level
equals the kept debounced state. -/
def StageLine.dipRestart (debounce : Nat) (x : StageLine) : StageLine :=
  { x with timer := if x.debounced = some x.input then none else some ⟨x.input, debounce⟩ }

/-- A rack line after a DIP restart (R152): the period timer of a line that has sent a frame starts afresh. -/
def RackLine.dipRestart (period : Nat) (x : RackLine) : RackLine := { x with timer := if x.last.isSome then some period else none }

/-- A save in flight at a dip is abandoned: its item stays INVALID and SAVE_LOST is added (R181). -/
def State.abandonSave (s : State) : State :=
  match s.saving with
  | none => s
  | some x => ({ s.invalidate x.cls with saving := none }).notifyAll .saveLost

/-- The DIP restart (R181), in one event. -/
def State.dipRestart (s : State) : State :=
  let s := { s with
    power := .running
    ports := s.ports.map Port.dipRestart
    stage := Table.tabulate fun n => (s.stage.get n).dipRestart (s.rig.lines.get n).debounce
    racks := Table.tabulate fun k => (s.racks.get k).dipRestart (s.rig.racks.get k).period
    rebuild := s.rebuild.map fun r : Rebuild => { r with replyTo := none } }
  s.restartMonitors.abandonSave.notifyAll (.restarted .dip)

/-- The RESET line goes low. A part that has its supply is held in reset (R178); below the working range no event is taken and the
kept working state stands, so only the level changes (R180). -/
def State.lowerReset (s : State) : State :=
  match s.power with
  | .running | .held => s.assertReset
  | .dipped _ => { s with power := .dipped .low }

/-- A cold start's occasion: the release of the RESET line, a failed retention check at the recovery, or a power-on. All make the
cold start but a release before the recovery, which a part without its supply does not take (R180, logs 22 and 28). -/
def State.startCold (s : State) : State :=
  match s.power with
  | .running | .held | .dipped .high => s.coldStart
  | .dipped .low => { s with power := .dipped .high }

/-- The core supply is back (R180): the DIP restart, or reset, whatever the retention memory holds, when the RESET line is low. A
part that has not lost its supply has nothing to recover from (log 12). -/
def State.recover (s : State) : State :=
  match s.power with
  | .running | .held => s
  | .dipped .high => s.dipRestart
  | .dipped .low => s.assertReset

/-! ## The rows -/

/-- RESET_ASSERT (R178, R180). -/
def execResetAssert (s : State) : Host.Outcome State Fault Refusal := .next s.lowerReset

/-- COLD_START (R179), from whatever the part did before (R180, logs 22 and 28). -/
def execColdStart (s : State) : Host.Outcome State Fault Refusal := .next s.startCold

/-- SUPPLY_DIP (R180); held in reset the part has nothing to stop (log 23). -/
def execSupplyDip (s : State) : Host.Outcome State Fault Refusal := .next (whileRunning s s.dip)

/-- DIP_RESTART, the recovery of a part stopped by a dip (R180, R181, log 28). -/
def execDipRestart (s : State) : Host.Outcome State Fault Refusal := .next s.recover

end Sys2Proof.Machine
end

