-- ==== Sys2Proof/Machine/Stage.lean ====
section
/-! DEFINITION. The stage line unit (chapter 8): inputs, debounce, assertion and its edges, LINE_SETUP, and the override looks. -/

namespace Sys2Proof.Machine

def State.line (s : State) (n : Fin 4) : StageLine := s.stage.get n
def State.setLine (s : State) (n : Fin 4) (x : StageLine) : State := { s with stage := s.stage.set n x }

/-! ## Debounce (R125) -/

/-- A line whose input lead changes to level `v` (R125): a settled line starts its timer when the level differs from the
debounced state, and stops it when a running timer finds the input back; an UNSETTLED line times the new level afresh. -/
def StageLine.change (x : StageLine) (debounce : Nat) (v : LineLevel) : StageLine :=
  match x.debounced with
  | none => ⟨v, none, some ⟨v, debounce⟩⟩
  | some d => if x.timer.isNone && d ≠ v then ⟨v, some d, some ⟨v, debounce⟩⟩ else ⟨v, some d, none⟩

/-- The lead of line `n` at level `v`: a change is sampled while the part runs; otherwise only the lead's own level changes
(R178, R180). -/
def State.inputChange (s : State) (n : Fin 4) (v : LineLevel) : State :=
  let x := s.line n
  if x.input = v then s
  else if s.power = .running then s.setLine n (x.change (s.rig.lines.get n).debounce v)
  else s.setLine n { x with input := v }

/-! ## Edges (R126, R127) -/

/-- Whether latch edges select a change of assertion to `now` (R127). -/
def LatchEdges.selects (e : LatchEdges) (now : Bool) : Bool :=
  match e with
  | .noEdge => false
  | .assertion => now
  | .release => !now
  | .both => true

/-- The change of line `n`'s assertion between `before` and the state as it stands: a selected edge adds LINE_EDGE (R126, R127).
The freeze and the raised looks follow by themselves, being derived (R128, R129). -/
def State.edge (s : State) (n : Fin 4) (before : Bool) : State :=
  if s.asserted n ≠ before ∧ (s.rig.lines.get n).edges.selects (s.asserted n) then s.notifyAll (.lineEdge n) else s

/-- The expiry of line `n`'s debounce timer: the debounced state becomes the level timed (R125). -/
def State.debounceExpiry (s : State) (n : Fin 4) : State :=
  match (s.line n).timer with
  | none => s
  | some t => (s.setLine n ⟨(s.line n).input, some t.timing, none⟩).edge n (s.asserted n)

/-! ## LINE_SETUP (R130) -/

/-- An active level as LINE_SETUP carries it (R184). -/
def activeValue (n : Nat) : Option LineLevel := if n = 0 then some .low else if n = 1 then some .high else none

/-- Latch edges as LINE_SETUP carries them (R184). -/
def edgesValue (n : Nat) : Option LatchEdges :=
  if n = 0 then some .noEdge else if n = 1 then some .assertion else if n = 2 then some .release
  else if n = 3 then some .both else none

/-- An action as LINE_SETUP carries it; the look number is examined only with action LOOK (R184). -/
def actionValue (n look : Nat) : Option LineAction :=
  if n = 0 then some .notify else if n = 1 then some .freeze
  else if n = 2 then (numbered 4 look).map .look else none

/-- The settings of line `n` replaced, with their effects at once (R130): a changed debounce time restarts a running timer,
and a changed assertion is an edge under the new latch edges. -/
def State.setupLine (s : State) (n : Fin 4) (x : LineSettings) : State :=
  let before := s.asserted n
  let old := (s.rig.lines.get n).debounce
  let s := s.setRig { s.rig with lines := s.rig.lines.set n x }
  let s := if old = x.debounce then s else
    s.setLine n { s.line n with timer := (s.line n).timer.map fun t => { t with remaining := x.debounce } }
  s.edge n before

/-- LINE_SETUP (R130): the debounce held to 10..250 ms. -/
def decideLineSetup (l : Link) (body : List Byte) (role : Role) (s : State) : Verdict :=
  match readLineSetup body with
  | none => answer .badField s
  | some f =>
    match deskOf l with
    | none => answer .role s
    | some _ =>
      match numbered 4 f.line, activeValue f.active, edgesValue f.edges, actionValue f.action f.look with
      | some n, some active, some edges, some action =>
        refuseFirst [(decide (role ≠ .lead), .notLead), (s.savingRig, .storeBusy)] s
          (answer (okOr (decide (clampTo 10 250 f.debounce ≠ f.debounce)))
            (s.setupLine n ⟨active, edges, action, clampTo 10 250 f.debounce⟩))
      | _, _, _, _ => answer .badField s

/-! ## Override looks (R131 to R135) -/

/-- The entries of a LOOK_SET with their circuits checked; `none` where a circuit is 0 or above 768 (R134). -/
def checkEntries : List (Nat × Nat) → Option (List LookEntry)
  | [] => some []
  | (c, v) :: rest =>
    match numbered 768 c, checkEntries rest with
    | some c, some es => some (⟨c, v⟩ :: es)
    | _, _ => none

/-- Whether a circuit is named by two entries. -/
def circuitTwice : List LookEntry → Bool
  | [] => false
  | e :: rest => rest.any (fun x => x.circuit = e.circuit) || circuitTwice rest

/-- An entry inserted at its place in ascending circuit order. -/
def insertLook (e : LookEntry) : List LookEntry → List LookEntry
  | [] => [e]
  | x :: rest => if e.circuit < x.circuit then e :: x :: rest else x :: insertLook e rest

/-- Entries in ascending circuit order (R134). -/
def sortLook (es : List LookEntry) : List LookEntry := es.foldr insertLook []

/-- LOOK_SET (R134). -/
def decideLookSet (l : Link) (body : List Byte) (role : Role) (s : State) : Verdict :=
  match readLookSet body with
  | none => answer .badField s
  | some f =>
    match deskOf l with
    | none => answer .role s
    | some _ =>
      match numbered 4 f.look, checkEntries f.entries with
      | some k, some es =>
        refuseFirst
          [(decide (3 < f.priority), .badField), (decide (role ≠ .lead), .notLead),
           (decide (Config.lookEntries < es.length), .listFull), (circuitTwice es, .badField), (s.savingRig, .storeBusy)] s
          (answer .ok (s.setRig { s.rig with looks := s.rig.looks.set k ⟨f.priority, sortLook es⟩ }))
      | _, _ => answer .badField s

/-- The desk-raised flag of a look set to `b` (R135). -/
def State.setDeskRaised (s : State) (k : Fin 4) (b : Bool) : State := { s with deskRaised := s.deskRaised.set k b }

/-- LOOK_RAISE and LOOK_LOWER (R135). -/
def decideRaise (b : Bool) (l : Link) (body : List Byte) (role : Role) (s : State) : Verdict :=
  match readByte body with
  | none => answer .badField s
  | some k =>
    match deskOf l with
    | none => answer .role s
    | some _ =>
      match numbered 4 k with
      | none => answer .badField s
      | some k => if role ≠ .lead then answer .notLead s else answer .ok (s.setDeskRaised k b)

/-! ## The rows -/

/-- LINE_INPUT_CHANGE (R125). -/
def execLineInputChange (line : Fin 4) (level : LineLevel) (s : State) : Host.Outcome State Fault Refusal :=
  .next (s.inputChange line level)

/-- DEBOUNCE_TIMER_EXPIRY (R125). -/
def execDebounceTimerExpiry (line : Fin 4) (s : State) : Host.Outcome State Fault Refusal :=
  .next (whileRunning s (s.debounceExpiry line))

def execLineSetup (link : Link) (tag : Byte) (body : List Byte) (s : State) : Host.Outcome State Fault Refusal :=
  .next (requestRow link ⟨kindLineSetup, tag, body⟩ (decideLineSetup link body) s)

def execLookSet (link : Link) (tag : Byte) (body : List Byte) (s : State) : Host.Outcome State Fault Refusal :=
  .next (requestRow link ⟨kindLookSet, tag, body⟩ (decideLookSet link body) s)

def execLookRaise (link : Link) (tag : Byte) (body : List Byte) (s : State) : Host.Outcome State Fault Refusal :=
  .next (requestRow link ⟨kindLookRaise, tag, body⟩ (decideRaise true link body) s)

def execLookLower (link : Link) (tag : Byte) (body : List Byte) (s : State) : Host.Outcome State Fault Refusal :=
  .next (requestRow link ⟨kindLookLower, tag, body⟩ (decideRaise false link body) s)

end Sys2Proof.Machine
end

