-- ==== Sys2Proof/Machine/Telegram.lean ====
section
/-! DEFINITION. Telegrams on the link (sections 10.1 and 12.1): the check, the envelope of a request and of a reply, the receiver,
and the port's own rows: LINK_BYTE_RECEIVED, VALID_TELEGRAM, BAD_TELEGRAM, INTER_BYTE_GAP, REPLY_SENT and UNKNOWN_KIND. -/

namespace Sys2Proof.Machine

/-! ## The check (R155) -/

/-- One bit of the CRC register: shifted left, with 0x1021 taken in when a 1 leaves it. -/
def crcBit (r : BitVec 16) : BitVec 16 := if r.msb then (r <<< 1) ^^^ 0x1021 else r <<< 1

/-- One byte taken into the CRC register, most significant bit first. -/
def crcByte (r : BitVec 16) (b : Byte) : BitVec 16 :=
  let r := r ^^^ ((b.setWidth 16) <<< 8)
  crcBit (crcBit (crcBit (crcBit (crcBit (crcBit (crcBit (crcBit r)))))))

/-- The check over a row of bytes: CRC-16, polynomial 0x1021, initial value 0xFFFF, no reflection, no final inversion (R155). -/
def crc16 (bs : List Byte) : BitVec 16 := bs.foldl crcByte 0xFFFF

/-- The two check bytes of a row of bytes, high byte first. -/
def checkBytes (bs : List Byte) : List Byte := bytes16 (crc16 bs).toNat

/-! ## Envelopes (chapter 12.1) -/

/-- Start byte, then length, content and check: the content runs from the kind to the end of the body. -/
def envelope (content : List Byte) : List Byte :=
  let counted := bytes16 content.length ++ content
  Config.startByte :: counted ++ checkBytes counted

/-- A request as a master sends it. -/
def Request.telegram (r : Request) : List Byte := envelope (r.kind :: r.tag :: r.body)

/-- The value of a result code in byte 5 of a reply (R183). -/
def ResultCode.value : ResultCode → Byte
  | .ok => 0x00 | .clamped => 0x01 | .echo => 0x02 | .notLead => 0x03 | .role => 0x04 | .badField => 0x05
  | .slotState => 0x06 | .slotRunning => 0x07 | .staleSlot => 0x08 | .storeFull => 0x09 | .countMismatch => 0x0A
  | .listFull => 0x0B | .heldByLine => 0x0C | .nothingBack => 0x0D | .parkFull => 0x0E | .bankBusy => 0x10
  | .bankLive => 0x11 | .cuesRunning => 0x12 | .storeBusy => 0x13 | .leadHeld => 0x14 | .storeFault => 0x15
  | .unknownKind => 0x16

/-- A reply as the part sends it (R158, R183). -/
def Reply.telegram (r : Reply) : List Byte := envelope (r.kind :: r.tag :: r.code.value :: r.body)

/-! ## The receiver (R155) -/

/-- What the bytes taken after a start byte amount to. -/
inductive Reading where
  /-- More bytes are needed. -/
  | partly
  /-- The telegram is bad: its length is out of range, or its check does not agree. -/
  | bad
  /-- The telegram is valid; these bytes stand behind it. -/
  | valid (r : Request) (rest : List Byte)
deriving DecidableEq, Repr

/-- The bytes after a start byte read as a telegram: two length bytes, that many bytes, two check bytes (R155). -/
def readTelegram (bs : List Byte) : Reading :=
  match bs with
  | h :: l :: more =>
    let n := be16 h l
    if n < Config.minLength ∨ Config.maxLength < n then .bad
    else if more.length < n + 2 then .partly
    else if checkBytes (h :: l :: more.take n) = (more.drop n).take 2 then
      match more.take n with
      | kind :: tag :: body => .valid ⟨kind, tag, body⟩ (more.drop (n + 2))
      | _ => .bad
    else .bad
  | _ => .partly

/-- The receiver from HUNTING over a row of bytes, with the valid telegrams it hands on, in order (R155). A byte other than 0xC3
is discarded; a bad telegram is discarded and every byte taken after its start byte is examined again. `fuel` bounds the
start bytes met. -/
def scan : Nat → List Byte → Receiver × List Request
  | _, [] => (.hunting, [])
  | 0, _ => (.hunting, [])
  | fuel + 1, b :: bs =>
    if b = Config.startByte then
      match readTelegram bs with
      | .partly => (.collecting bs, [])
      | .bad => scan fuel bs
      | .valid r rest =>
        let (x, rs) := scan fuel rest
        (x, r :: rs)
    else scan fuel bs

/-- The receiver from HUNTING over a row of bytes: no more start bytes than bytes. -/
def hunt (bs : List Byte) : Receiver × List Request := scan bs.length bs

/-- One more byte at a receiver (R155). -/
def Receiver.take (x : Receiver) (b : Byte) : Receiver × List Request :=
  match x with
  | .hunting => hunt [b]
  | .collecting taken => hunt (Config.startByte :: (taken ++ [b]))

/-- The telegram being collected is bad: it is discarded and the bytes after its start byte are examined again (R155). -/
def Receiver.discard (x : Receiver) : Receiver × List Request :=
  match x with
  | .hunting => (.hunting, [])
  | .collecting taken => hunt taken

/-- A port's receiver brought to where its bytes lead, and the telegrams handed on in order (R156). -/
def State.handOn (s : State) (l : Link) (x : Receiver × List Request) : State :=
  x.2.foldl (fun s r => s.arrive l r) (s.modPort l fun p => { p with receiver := x.1 })

/-! ## The rows -/

/-- LINK_BYTE_RECEIVED (R155): the byte that completes a telegram decides it at once (log 10). -/
def execLinkByteReceived (link : Link) (byte : Byte) (s : State) : Host.Outcome State Fault Refusal :=
  .next (whileRunning s (s.handOn link ((s.port link).receiver.take byte)))

/-- VALID_TELEGRAM (R156): a telegram received whole, its check agreeing. -/
def execValidTelegram (link : Link) (kind tag : Byte) (body : List Byte) (s : State) : Host.Outcome State Fault Refusal :=
  .next (whileRunning s (s.receive link ⟨kind, tag, body⟩))

/-- BAD_TELEGRAM (R155): the telegram being collected is discarded. A character with a missing stop bit is itself not among the
bytes examined again (log 11). -/
def execBadTelegram (link : Link) (s : State) : Host.Outcome State Fault Refusal :=
  .next (whileRunning s (s.handOn link (s.port link).receiver.discard))

/-- INTER_BYTE_GAP (R155): the telegram being collected is discarded and no bytes are held. -/
def execInterByteGap (link : Link) (s : State) : Host.Outcome State Fault Refusal :=
  .next (whileRunning s (s.modPort link fun p => { p with receiver := .hunting }))

/-- A port whose head's reply has been sent whole: the head leaves the queue and the notices the reply carried leave the set
(R157, R168). -/
def Port.replySent (p : Port) : Port :=
  match p.head with
  | .replying _ carried => { p with queue := p.queue.tail, head := .untaken, notices := p.notices.without carried }
  | _ => p

/-- REPLY_SENT (R168). -/
def execReplySent (link : Link) (s : State) : Host.Outcome State Fault Refusal :=
  .next (whileRunning s (s.modPort link Port.replySent))

/-- UNKNOWN_KIND (R158): the port answers it itself, in any role, and nothing changes. The row with a kind the table lists is
ill-formed and does nothing (log 21). -/
def decideUnknownKind (_role : Role) (s : State) : Verdict := answer .unknownKind s

def execUnknownKind (link : Link) (kind tag : Byte) (body : List Byte) (s : State) : Host.Outcome State Fault Refusal :=
  .next (if knownKind kind then s else requestRow link ⟨kind, tag, body⟩ decideUnknownKind s)

end Sys2Proof.Machine
end

