-- ==== Sys2Proof/Machine/Dispatch.lean ====
section
/-! DEFINITION. The one map from a command to its meaning: one arm per row of the opcode table, in the table's order. -/

namespace Sys2Proof.Machine

def exec (i : Instr) (s : State) : Host.Outcome State Fault Refusal :=
  match i with
  | .validTelegram link kind tag body => Sys2Proof.Machine.execValidTelegram link kind tag body s
  | .badTelegram link => Sys2Proof.Machine.execBadTelegram link s
  | .interByteGap link => Sys2Proof.Machine.execInterByteGap link s
  | .replySent link => Sys2Proof.Machine.execReplySent link s
  | .unknownKind link kind tag body => Sys2Proof.Machine.execUnknownKind link kind tag body s
  | .status link tag body => Sys2Proof.Machine.execStatus link tag body s
  | .read link tag body => Sys2Proof.Machine.execRead link tag body s
  | .takeLead link tag body => Sys2Proof.Machine.execTakeLead link tag body s
  | .yieldLead link tag body => Sys2Proof.Machine.execYieldLead link tag body s
  | .linkSetup link tag body => Sys2Proof.Machine.execLinkSetup link tag body s
  | .cueOpen link tag body => Sys2Proof.Machine.execCueOpen link tag body s
  | .cueMoves link tag body => Sys2Proof.Machine.execCueMoves link tag body s
  | .cueClose link tag body => Sys2Proof.Machine.execCueClose link tag body s
  | .cueDrop link tag body => Sys2Proof.Machine.execCueDrop link tag body s
  | .go link tag body => Sys2Proof.Machine.execGo link tag body s
  | .back link tag body => Sys2Proof.Machine.execBack link tag body s
  | .manual link tag body => Sys2Proof.Machine.execManual link tag body s
  | .release link tag body => Sys2Proof.Machine.execRelease link tag body s
  | .hold link tag body => Sys2Proof.Machine.execHold link tag body s
  | .resume link tag body => Sys2Proof.Machine.execResume link tag body s
  | .rate link tag body => Sys2Proof.Machine.execRate link tag body s
  | .pbLevel link tag body => Sys2Proof.Machine.execPbLevel link tag body s
  | .playbackSetup link tag body => Sys2Proof.Machine.execPlaybackSetup link tag body s
  | .fadeTick => Sys2Proof.Machine.execFadeTick s
  | .followDue entry => Sys2Proof.Machine.execFollowDue entry s
  | .echoTimerExpiry playback => Sys2Proof.Machine.execEchoTimerExpiry playback s
  | .patchSet link tag body => Sys2Proof.Machine.execPatchSet link tag body s
  | .bankClear link tag body => Sys2Proof.Machine.execBankClear link tag body s
  | .bankCopy link tag body => Sys2Proof.Machine.execBankCopy link tag body s
  | .bankSelect link tag body => Sys2Proof.Machine.execBankSelect link tag body s
  | .rebuildEnd => Sys2Proof.Machine.execRebuildEnd s
  | .startBank link tag body => Sys2Proof.Machine.execStartBank link tag body s
  | .profileSet link tag body => Sys2Proof.Machine.execProfileSet link tag body s
  | .lawLoad link tag body => Sys2Proof.Machine.execLawLoad link tag body s
  | .park link tag body => Sys2Proof.Machine.execPark link tag body s
  | .flash link tag body => Sys2Proof.Machine.execFlash link tag body s
  | .nudge link tag body => Sys2Proof.Machine.execNudge link tag body s
  | .unpark link tag body => Sys2Proof.Machine.execUnpark link tag body s
  | .flashTimerExpiry circuit => Sys2Proof.Machine.execFlashTimerExpiry circuit s
  | .lineInputChange line level => Sys2Proof.Machine.execLineInputChange line level s
  | .debounceTimerExpiry line => Sys2Proof.Machine.execDebounceTimerExpiry line s
  | .lineSetup link tag body => Sys2Proof.Machine.execLineSetup link tag body s
  | .lookSet link tag body => Sys2Proof.Machine.execLookSet link tag body s
  | .lookRaise link tag body => Sys2Proof.Machine.execLookRaise link tag body s
  | .lookLower link tag body => Sys2Proof.Machine.execLookLower link tag body s
  | .grand link tag body => Sys2Proof.Machine.execGrand link tag body s
  | .rackSetup link tag body => Sys2Proof.Machine.execRackSetup link tag body s
  | .frameStart rack => Sys2Proof.Machine.execFrameStart rack s
  | .save link tag body => Sys2Proof.Machine.execSave link tag body s
  | .saveEnd => Sys2Proof.Machine.execSaveEnd s
  | .saveWriteFailure => Sys2Proof.Machine.execSaveWriteFailure s
  | .silenceMonitorExpiry link => Sys2Proof.Machine.execSilenceMonitorExpiry link s
  | .resetAssert => Sys2Proof.Machine.execResetAssert s
  | .coldStart => Sys2Proof.Machine.execColdStart s
  | .supplyDip => Sys2Proof.Machine.execSupplyDip s
  | .dipRestart => Sys2Proof.Machine.execDipRestart s
  | .linkByteReceived link byte => Sys2Proof.Machine.execLinkByteReceived link byte s

end Sys2Proof.Machine
end

