-- ==== Sys2Proof/Safety.lean ====
section
/-! DEFINITION. The terms the claims use: when a request is the next to be taken, the size a body must have, and the invariants of
each block, stated over every state (each names the rule that gives it). -/

namespace Sys2Proof.Machine

/-! ## Requests -/

/-- The part runs and request `r` stands untaken at the head of link `l`'s queue (R157). -/
def AtHead (s : State) (l : Link) (r : Request) : Prop := s.power = .running ∧ (s.port l).next? = some r

/-- The request at the head of link `l`'s queue answered with a code and no body (R158). -/
def State.answered (s : State) (l : Link) (code : ResultCode) : State := s.answerHead l code [] {}

/-- The fixed body sizes of R184's table; `none` for the three kinds whose size follows their count byte and for an unknown
kind. -/
def fixedSize (k : Byte) : Option Nat :=
  ([(kindStatus, 0), (kindRead, 4), (kindTakeLead, 1), (kindYieldLead, 0), (kindLinkSetup, 4), (kindCueOpen, 16),
    (kindCueClose, 1), (kindCueDrop, 1), (kindGo, 4), (kindBack, 1), (kindRelease, 1), (kindHold, 1), (kindResume, 1),
    (kindRate, 3), (kindPbLevel, 3), (kindPlaybackSetup, 5), (kindPatchSet, 6), (kindBankClear, 1), (kindBankCopy, 2),
    (kindBankSelect, 1), (kindStartBank, 1), (kindProfileSet, 8), (kindLawLoad, 35), (kindPark, 4), (kindFlash, 8),
    (kindNudge, 3), (kindUnpark, 2), (kindLineSetup, 6), (kindLookRaise, 1), (kindLookLower, 1), (kindGrand, 3),
    (kindRackSetup, 3), (kindSave, 2)] : List (Byte × Nat)).lookup k

/-- Whether a body has the size its kind calls for (R184). -/
def sizeFits (k : Byte) (body : List Byte) : Prop :=
  if k = kindCueMoves then ∃ s n rest, body = s :: n :: rest ∧ rest.length = 8 * n.toNat
  else if k = kindManual then ∃ p t1 t0 n rest, body = p :: t1 :: t0 :: n :: rest ∧ rest.length = 4 * n.toNat
  else if k = kindLookSet then ∃ x p n rest, body = x :: p :: n :: rest ∧ rest.length = 4 * n.toNat
  else fixedSize k = some body.length

/-- Whether a notice is in a notice set; RESTARTED with a kind is in it when the set carries that kind (R167). -/
def Notices.has (x : Notices) : Notice → Bool
  | .failover => x.failover
  | .leadTaken => x.leadTaken
  | .forced => x.forced
  | .backLost => x.backLost
  | .followLapsed => x.followLapsed
  | .diverged => x.diverged
  | .lawFault => x.lawFault
  | .lineEdge n => x.lineEdge.get n
  | .overrun => x.overrun
  | .restarted k => x.restarted = some k
  | .saveLost => x.saveLost
  | .bankLost => x.bankLost
  | .rigLost => x.rigLost

/-! ## Links and lead -/

/-- One port: the bytes it has collected are an unfinished telegram (R155), at most 4 requests are pending (R157), a taken head
stands on a request, a SILENT link has no untaken request and at most its taken one (R160), and the monitor runs exactly
while the link is LIVE (R159). -/
structure Port.Legal (p : Port) : Prop where
  unfinished : ∀ taken, p.receiver = .collecting taken → readTelegram taken = .partly
  queue_le : p.queue.length ≤ Config.queueDepth
  head_stands : p.head ≠ .untaken → p.queue ≠ []
  silent_holds : p.state = .silent → p.queue.length ≤ 1 ∧ (p.head = .untaken → p.queue = [])
  monitor_live : p.monitor.isSome = true ↔ p.state = .live

/-- The ports, and the lead, which names a LIVE link (R162); a head is timed exactly while the save or the rebuild its link
awaits is in flight, and never both (R157, R175, R88). -/
structure State.LinksLegal (s : State) : Prop where
  ports : ∀ l, (s.port l).Legal
  lead_live : ∀ d, s.lead = some d → (s.port (linkOf d)).state = .live
  timed : ∀ d, (s.port (linkOf d)).head = .timed ↔
    s.saving.map (·.link) = some d ∨ s.rebuild.bind (·.replyTo) = some d
  not_both : ∀ d, ¬ (s.saving.map (·.link) = some d ∧ s.rebuild.bind (·.replyTo) = some d)
  remote_untimed : (s.port .c).head ≠ .timed

/-! ## Cue store -/

/-- A cue's header within R1: cue number, four times and delays, follow time and declared count in their ranges. -/
def CueHeader.Legal (h : CueHeader) : Prop :=
  1 ≤ h.cue ∧ h.cue ≤ Config.lastCue ∧ 1 ≤ h.declared ∧ h.declared ≤ Config.declaredMoves ∧
    h.upTime ≤ Config.lastTenths ∧ h.downTime ≤ Config.lastTenths ∧ h.upDelay ≤ Config.lastTenths ∧
    h.downDelay ≤ Config.lastTenths ∧ ∀ f ∈ h.follow, f.tenths ≤ Config.lastTenths

/-- A move within R2: target level, own time and own delay in their ranges. -/
def Move.Legal (m : Move) : Prop :=
  m.target ≤ Config.full ∧ (∀ n ∈ m.ownTime, n ≤ Config.lastTenths) ∧ ∀ n ∈ m.ownDelay, n ≤ Config.lastTenths

/-- A cue's header and moves within R1 and R2, no more moves than declared and no channel twice. -/
def contentLegal (h : CueHeader) (ms : List Move) : Prop :=
  h.Legal ∧ (∀ m ∈ ms, m.Legal) ∧ ms.length ≤ h.declared ∧ (ms.map (·.channel)).Nodup

/-- A slot within R1: READY and RUNNING hold exactly the declared count of moves. -/
def Slot.Legal : Slot → Prop
  | .empty => True
  | .filling h ms _ => contentLegal h ms
  | .ready h ms => contentLegal h ms ∧ ms.length = h.declared
  | .running h ms => contentLegal h ms ∧ ms.length = h.declared

/-- The cue number of a slot that is not EMPTY. -/
def Slot.cue? : Slot → Option Nat
  | .empty => none
  | .filling h _ _ => some h.cue
  | .ready h _ => some h.cue
  | .running h _ => some h.cue

/-- The cue store: the reservations sum to at most 4096 (R3), every slot is within R1, a fill record names a slot in mode FILLING
exactly when its link is that slot's filler, an ABSORBING record names a slot that holds the absorbed cue number, and link
C has no fill record (R4). -/
structure State.CuesLegal (s : State) : Prop where
  reserved_le : s.reservedMoves ≤ Config.moveStore
  slots : ∀ t, (s.slot t).Legal
  fills : ∀ t d, (∃ h ms, s.slot t = .filling h ms d) ↔ s.fill d = some ⟨t, .filling⟩
  absorbs : ∀ t d cue, s.fill d = some ⟨t, .absorbing cue⟩ → (s.slot t).cue? = some cue
  remote_none : s.ports.c.fill = none

/-! ## Fade engine -/

/-- The run list: at most 16 entries, no number twice (R25), oldest first, every entry made before the next start. -/
structure State.RunListLegal (s : State) : Prop where
  length_le : s.runList.length ≤ Config.runEntries
  numbers : (s.runList.map (·.number)).Nodup
  oldest_first : (s.runList.map (·.birth)).Pairwise (· < ·)
  births_lt : ∀ e ∈ s.runList, e.birth < s.births

/-- The restore area: at most 2048 pairs held (R64) and at most 8 entries in each stack (R63). -/
structure State.RestoreLegal (s : State) : Prop where
  held_le : s.heldPairs ≤ Config.restorePairs
  depth_le : ∀ p, (s.playback p).stack.length ≤ Config.restoreDepth

/-- The engine: every owner is a listed entry of the record's playback, every owned count is the number of records that name the
entry, no entry stands without a channel or a follow (R26), and RUNNING slots and CUE entries name each other (R25). -/
structure State.EngineLegal (s : State) : Prop where
  cues : s.CuesLegal
  runList : s.RunListLegal
  pairs_once : ∀ p, ∀ r ∈ (s.playback p).stack, (r.pairs.map (·.channel)).Nodup
  owners : ∀ p c o, (s.channel p c).own = some o → ∃ e ∈ s.runList, e.number = o.owner ∧ e.playback = p
  counts : ∀ e ∈ s.runList, e.owned = (s.channels.get e.playback).count (ownedBy e.number)
  busy : ∀ e ∈ s.runList, 0 < e.owned ∨ e.follow.isSome = true
  running : ∀ t, (∃ h ms, s.slot t = .running h ms) ↔ ∃ e ∈ s.runList, ∃ cue f, e.kind = .cue t cue f
  one_entry : ∀ t, ∀ e ∈ s.runList, ∀ e' ∈ s.runList, (∃ cue f, e.kind = .cue t cue f) →
    (∃ cue f, e'.kind = .cue t cue f) → e = e'

/-- What a start needs of the state it finds: a legal run list, owners that are listed entries of the record's playback, owned
counts that count their records, and every entry with a reason to stand: a channel, a follow, or its follow firing (R26,
R36). -/
structure State.OwnersLegal (s : State) (firing : List Nat) : Prop where
  runList : s.RunListLegal
  owners : ∀ p c o, (s.channel p c).own = some o → ∃ e ∈ s.runList, e.number = o.owner ∧ e.playback = p
  counts : ∀ e ∈ s.runList, e.owned = (s.channels.get e.playback).count (ownedBy e.number)
  busy : ∀ e ∈ s.runList, 0 < e.owned ∨ e.follow.isSome = true ∨ e.birth ∈ firing
  firing_lt : ∀ b ∈ firing, b < s.births

/-- An entry that the test for removal leaves in the list (R26): it owns a channel, holds a pending follow, or its follow is
firing (R36). -/
def RunEntry.stays (firing : List Nat) (e : RunEntry) : Bool := 0 < e.owned || e.follow.isSome || firing.contains e.birth

/-- An entry with its owned count as the channel table has it (R26). -/
def RunEntry.recounted (t : State) (e : RunEntry) : RunEntry :=
  { e with owned := (t.channels.get e.playback).count (ownedBy e.number) }

/-- The entries of a list that still stand with the channel table as `t` has it (R26). -/
def State.standing (t : State) (firing : List Nat) (l : List RunEntry) : List RunEntry :=
  (l.map (RunEntry.recounted t)).filter (RunEntry.stays firing)

/-- Slot `u` after some of `entries` have left the list: READY if one of those that left named it, else as it was (R17, R25). -/
def SlotFollows (s : State) (entries : List RunEntry) (t : State) (u : Fin 32) : Prop :=
  let left : Prop := ∃ e ∈ entries, (∃ cue f, e.kind = .cue u cue f) ∧ e.birth ∉ t.runList.map (·.birth)
  (left → t.slot u = (s.slot u).toReady) ∧ (¬ left → t.slot u = s.slot u)

/-- The CUE entry that a GO or follow creates for a slot, with the content of its header (R24, R35 step 4, R48). -/
def cueEntry (s : State) (p : Fin 4) (t : Fin 32) (h : CueHeader) (who : StartedBy) : RunEntry :=
  ⟨s.lowestFree, s.births, .cue t h.cue (h.follow.map fun f => ⟨f.slot, f.tenths * 1000⟩), p, 0, 0, who⟩

/-- What running the READY content of slot `t` makes of a state with room in its run list (R17, R24 to R28, R35): the new CUE
entry stands at the end of the list, which the entries left with nothing have left; each channel of the moves has the level and
phase of its new ownership at clock 0, every other channel stands; the slot is RUNNING while its entry stands. -/
structure CueStarted (s : State) (p : Fin 4) (t : Fin 32) (h : CueHeader) (ms : List Move) (who : StartedBy) (v : State) :
    Prop where
  runList : v.runList = v.standing [] (s.runList ++ [cueEntry s p t h who])
  taken : ∀ k ∈ cueTakes h ms, v.channel p k.channel = evalOwned (k.ownership s.lowestFree (s.channel p k.channel).level) 0
  others : ∀ c, c ∉ ms.map (·.channel) → v.channel p c = s.channel p c
  beside : ∀ q c, q ≠ p → v.channel q c = s.channel q c
  ran : v.slot t = if ((cueEntry s p t h who).recounted v).stays [] then .running h ms else .ready h ms
  slots : ∀ u, u ≠ t → SlotFollows s s.runList v u
  births : v.births = s.births + 1

/-- The state in which a GO or follow makes its start (R35 steps 1, 2, 4, 6 and 7): the hold flag clear, the restore entry pushed,
the slot RUNNING, the current cue and the echo record set. -/
def State.beforeStart (s : State) (p : Fin 4) (t : Fin 32) (h : CueHeader) (ms : List Move) (who : StartedBy) : State :=
  let w := s.push p ms
  (w.setSlot t (.running h ms)).setPlayback p
    { w.playback p with held := false, currentCue := h.cue, echo := some ⟨.cue, h.cue, who⟩, echoTimer := some 2000 }

/-- The start that a GO or follow makes of the READY content of slot `t` (R35 steps 3 to 8), its own follow not yet tested. -/
def State.cueStart (s : State) (firing : List Nat) (p : Fin 4) (t : Fin 32) (h : CueHeader) (ms : List Move) (who : StartedBy) :
    State :=
  (s.beforeStart p t h ms who).start firing (.cue t h.cue (h.follow.map fun f => ⟨f.slot, f.tenths * 1000⟩)) p who
    (cueTakes h ms)

/-- A channel record: a level within 0..65535 which, while the record is owned, lies between start and target and is the start
level while WAITING (R22, R54). -/
def ChannelRecord.Legal (r : ChannelRecord) : Prop :=
  r.level ≤ Config.full ∧ ∀ o, r.own = some o →
    o.start ≤ Config.full ∧ o.target ≤ Config.full ∧ min o.start o.target ≤ r.level ∧ r.level ≤ max o.start o.target ∧
      (o.phase = .waiting → r.level = o.start)

/-- The moves of a slot. -/
def Slot.moves : Slot → List Move
  | .empty => []
  | .filling _ ms _ => ms
  | .ready _ ms => ms
  | .running _ ms => ms

/-- Every level of the slots, the engine, the masters and the last frames lies in 0..65535 (Conventions), and every record
between its start and its target (R54). -/
structure State.LevelsLegal (s : State) : Prop where
  records : ∀ p c, (s.channel p c).Legal
  targets : ∀ t, ∀ m ∈ (s.slot t).moves, m.target ≤ Config.full
  restores : ∀ p, ∀ r ∈ (s.playback p).stack, ∀ x ∈ r.pairs, x.level ≤ Config.full
  backs : ∀ e ∈ s.runList, ∀ cue pairs, e.kind = .back cue pairs → ∀ x ∈ pairs, x.level ≤ Config.full
  frames : ∀ k f, (s.rack k).last = some f → ∀ v ∈ f.levels.cells, v ≤ Config.full
  masters : ∀ p, (s.playback p).master ≤ Config.full
  grand_le : s.grand ≤ Config.full

/-! ## Patch unit -/

/-- A bank: at most 1024 entries in ascending order of channel and circuit, no pair twice, every percent in 1..100 (R75). -/
structure BankLegal (b : List PatchEntry) : Prop where
  length_le : b.length ≤ Config.bankEntries
  ordered : b.Pairwise fun x y => x.before y = true
  percents : ∀ e ∈ b, 1 ≤ e.percent ∧ e.percent ≤ 100

/-- The patch unit: every bank, working or stored, is legal, and outside a rebuild the live circuit map holds exactly the live
bank's entries, each once under its circuit in ascending channel order (R77). -/
structure State.PatchLegal (s : State) : Prop where
  banks : ∀ n, BankLegal (s.bank n)
  stored : ∀ n, BankLegal (s.storedBanks.get n).content
  map_live : s.rebuild = none → ∀ c, s.liveMap.get c = feedersOf (s.bank s.liveBank) c

/-! ## Rig record -/

/-- A circuit profile within R95. -/
def Profile.Legal (f : Profile) : Prop := f.page ≤ 1 ∧ f.index ≤ 7 ∧ f.preheat ≤ f.topSet ∧ f.topSet ≤ Config.full

/-- The points of a law: within 0..65535 and never falling (R98). -/
def Points.Legal (p : Points) : Prop := p.cells.Pairwise (· ≤ ·) ∧ ∀ v ∈ p.cells, v ≤ Config.full

/-- A look's content within R131. -/
def Look.Legal (k : Look) : Prop :=
  k.priority ≤ 3 ∧ k.entries.length ≤ Config.lookEntries ∧ k.entries.Pairwise (fun a b => a.circuit < b.circuit) ∧
    ∀ e ∈ k.entries, e.level ≤ Config.full

/-- A rig record every field of which lies in its range (R173 with R95, R98, R131, R123, R159, R139, R20). -/
structure RigRecord.Legal (r : RigRecord) : Prop where
  profiles : ∀ c, (r.profiles.get c).Legal
  laws_le : r.laws.length ≤ 8
  laws : ∀ p ∈ r.laws, Points.Legal p
  looks : ∀ k, (r.looks.get k).Legal
  lines : ∀ n, 10 ≤ (r.lines.get n).debounce ∧ (r.lines.get n).debounce ≤ 250
  limits : ∀ n ∈ [r.linkSetup.limitA, r.linkSetup.limitB, r.linkSetup.limitC], 1 ≤ n ∧ n ≤ 63
  racks : ∀ k, 20 ≤ (r.racks.get k).period ∧ (r.racks.get k).period ≤ 50
  playbacks : ∀ p, (r.playbacks.get p).backTime ≤ Config.lastTenths ∧ (r.playbacks.get p).releaseTime ≤ Config.lastTenths

/-- The working and the stored rig record are legal, and the law-fault count is the number of profiles that name an undefined
law (R101). -/
structure State.RigLegal (s : State) : Prop where
  working : s.rig.Legal
  stored : s.storedRig.content.Legal
  faults : s.lawFaults = s.rig.profiles.count (undefinedLaw s.rig.laws)

/-! ## Park unit -/

/-- A park's fields within R111. -/
def Park.Legal (x : Park) : Prop :=
  x.levelA ≤ Config.full ∧ ∀ f, x.flash = some f →
    f.levelB ≤ Config.full ∧ 1 ≤ f.onTime ∧ f.onTime ≤ 255 ∧ 1 ≤ f.offTime ∧ f.offTime ≤ 255

/-- The park list: at most 64 entries, no circuit twice (R111). -/
structure State.ParksLegal (s : State) : Prop where
  length_le : s.parks.length ≤ Config.parkEntries
  circuits : (s.parks.map (·.circuit)).Nodup
  entries : ∀ x ∈ s.parks, x.Legal

end Sys2Proof.Machine
end

