-- ==== Sys2Proof/WellFormed.lean ====
section
/-! DEFINITION. What a command must satisfy to be one the part can meet: the body of a telegram fits the longest length a
receiver accepts (R155), and a request of UNKNOWN_KIND is of a kind R184's table does not list (R158). -/

namespace Sys2Proof

/-- A telegram with this body has a length a receiver accepts: kind, tag and body number at most 1100 (R155). -/
def bodyFits (body : List Byte) : Bool := body.length + 2 ≤ Config.maxLength

/-- The check of one command. -/
def WellFormed (i : Instr) : Bool :=
  match i with
  | .validTelegram _ _ _ body => bodyFits body
  | .unknownKind _ kind _ body => bodyFits body && !knownKind kind
  | i => match i.request? with
    | some (_, r) => bodyFits r.body
    | none => true

end Sys2Proof
end

