-- ==== Sys2Proof/Certificates/Slice0/Obligations.lean ====
section
/-! DEFINITION. The statements for the provers, block by block. A statement about a request row holds for every body of the size
its kind calls for and for every sender: its conclusion is one chain of cases in the order of the rule's checks. -/

open Sys2Proof Sys2Proof.Machine

/-! ## Links (chapters 10 and 12) -/

/-- One step takes the command at the front of the queue and runs it with the rest waiting.
That commands wait in a queue is the model's frame (log 1). -/
def Obligations.StepRunsTheFrontCommand : Prop :=
  ∀ (s : State) (c : Instr) (rest : List Instr),
    step { s with pending := c :: rest } = exec c { s with pending := rest }

/-- The model's choice of log 7: a request row whose request is not yet pending lets its telegram arrive, and takes the request
at once when no other request of its link was pending. -/
def Obligations.RequestRowArrivesThenIsTaken : Prop :=
  ∀ (s : State) (i : Instr) (l : Link) (r : Request),
    WellFormed i = true → i.request? = some (l, r) → s.power = .running →
      ((s.port l).queue = [] → (s.port l).head = .untaken →
        AtHead (s.receive l r) l r ∧ exec i s = exec i (s.receive l r)) ∧
      ((s.port l).queue ≠ [] → (s.port l).next? ≠ some r → exec i s = .next (s.receive l r))

/-- R155, R156: a valid telegram makes its link LIVE, restarts its monitor at the full limit, and joins the queue, or is discarded
with OVERRUN when 4 requests are pending. Nothing else changes.
That the receiver is HUNTING with no bytes held after it is the model's choice (log 10). -/
def Obligations.ValidTelegramJoinsItsQueue : Prop :=
  ∀ (s : State) (l : Link) (kind tag : Byte) (body : List Byte),
    s.power = .running →
      exec (.validTelegram l kind tag body) s = .next (s.setPort l
        { s.port l with
          receiver := .hunting
          state := .live
          monitor := some (s.limit l * 100)
          queue := if (s.port l).queue.length < 4 then (s.port l).queue ++ [⟨kind, tag, body⟩] else (s.port l).queue
          notices := if (s.port l).queue.length < 4 then (s.port l).notices
            else { (s.port l).notices with overrun := true } })

/-- R155 and 12.1: the bytes of a telegram, put one by one to a hunting receiver, have the effect of the request's arrival and
no other.
That its last byte decides it is the model's choice (log 10). -/
def Obligations.TelegramBytesDeliverTheRequest : Prop :=
  ∀ (s : State) (l : Link) (r : Request) (rest : List Instr),
    s.power = .running → (s.port l).receiver = .hunting → r.body.length + 2 ≤ 1100 →
      s.pending = (Request.telegram r).map (Instr.linkByteReceived l) ++ rest →
        Host.Core.run Sys2Proof.core (Request.telegram r).length s = .next (State.receive { s with pending := rest } l r)

/-- R155: what one byte does at a receiver, and what the discard of a bad telegram and a gap of more than 2 ms do. A discarded
telegram in whose bytes no start byte stands changes the receiver and nothing else.
Deciding at the last byte, and leaving out the character with the missing stop bit, are the model's choices (logs 10, 11).
A row whose occasion is absent changes nothing by the model's choice (log 12). -/
def Obligations.ReceiverRowsFollowTheFraming : Prop :=
  ∀ (s : State) (l : Link), s.power = .running →
    (∀ b, (s.port l).receiver = .hunting →
      exec (.linkByteReceived l b) s =
        .next (if b = 0xC3 then s.setPort l { s.port l with receiver := .collecting [] } else s)) ∧
    (∀ b taken, (s.port l).receiver = .collecting taken → readTelegram taken = .partly →
      exec (.linkByteReceived l b) s = .next (match readTelegram (taken ++ [b]) with
        | .partly => s.setPort l { s.port l with receiver := .collecting (taken ++ [b]) }
        | .valid r _ => s.receive l r
        | .bad => s.handOn l (hunt (taken ++ [b])))) ∧
    ((s.port l).receiver = .hunting → exec (.badTelegram l) s = .next s) ∧
    (∀ taken, (s.port l).receiver = .collecting taken →
      exec (.badTelegram l) s = .next (if 0xC3 ∈ taken then s.handOn l (hunt taken)
        else s.setPort l { s.port l with receiver := .hunting })) ∧
    exec (.interByteGap l) s = .next (s.setPort l { s.port l with receiver := .hunting })

/-- R157, R168: once a reply has been sent whole, its request leaves the queue and the notices it carried leave the set.
A row whose occasion is absent changes nothing by the model's choice (log 12). -/
def Obligations.ReplySentClearsTheHead : Prop :=
  ∀ (s : State) (l : Link), s.power = .running →
    exec (.replySent l) s = .next (match (s.port l).head with
      | .replying _ carried => s.setPort l
          { s.port l with queue := (s.port l).queue.tail, head := .untaken, notices := (s.port l).notices.without carried }
      | _ => s)

/-- R167, R168: an added notice is in the set beside those already there, RESTARTED(COLD) standing over RESTARTED(DIP); once
carried, exactly the carried ones are gone.
That the kinds of RESTARTED are cleared each for itself is the model's choice (log 13). -/
def Obligations.NoticesFoldAndClear : Prop :=
  (∀ (n m : Notice) (x : Notices),
    (x.add n).has m =
      if n = .restarted .dip ∧ m = .restarted .dip then !x.has (.restarted .cold)
      else if n = .restarted .cold ∧ m = .restarted .dip then false
      else decide (n = m) || x.has m) ∧
  (∀ (m : Notice) (x carried : Notices), (x.without carried).has m = (x.has m && !carried.has m))

/-- R158: a request of a kind that R184's table does not list is answered UNKNOWN_KIND in any role and changes nothing; its kind
returns unchanged when it is 0x80 or above. -/
def Obligations.UnknownKindChangesNothing : Prop :=
  ∀ (s : State) (l : Link) (kind tag : Byte) (body : List Byte),
    knownKind kind = false → AtHead s l ⟨kind, tag, body⟩ →
      exec (.unknownKind l kind tag body) s = .next (s.setPort l
        { s.port l with
          head := .replying ⟨(if 0x80 ≤ kind.toNat then kind else kind + 0x80), tag, .unknownKind, []⟩ {} })

/-- R158, R184: a request of a known kind whose body does not have the size its kind calls for is answered BAD_FIELD in any role
and changes nothing. -/
def Obligations.WrongBodySizeIsBadField : Prop :=
  ∀ (s : State) (l : Link) (kind tag : Byte) (body : List Byte),
    knownKind kind = true → ¬ sizeFits kind body → AtHead s l ⟨kind, tag, body⟩ →
      exec (rowOf l ⟨kind, tag, body⟩) s = .next (s.setPort l
        { s.port l with head := .replying ⟨kind + 0x80, tag, .badField, []⟩ {} })

/-- R157, R158, R168, R183: every request row, taken, completes: its own head is timed (SAVE, BANK_SELECT) or being answered with
its kind and tag, a body standing only in an OK to STATUS or READ and notices only in a STATUS reply; no queue and no
receiver changes, and no other link's head does. -/
def Obligations.TakenRequestAnswersOnItsOwnLink : Prop :=
  ∀ (s : State) (i : Instr) (l : Link) (r : Request),
    WellFormed i = true → i.request? = some (l, r) → AtHead s l r →
      ∃ t, exec i s = .next t ∧ t.power = .running ∧ t.pending = s.pending ∧
        (∀ m, (t.port m).queue = (s.port m).queue ∧ (t.port m).receiver = (s.port m).receiver ∧
          (m ≠ l → (t.port m).head = (s.port m).head)) ∧
        (((t.port l).head = .timed ∧ (r.kind = kindSave ∨ r.kind = kindBankSelect)) ∨
          ∃ code body carried, (t.port l).head = .replying ⟨replyKind r.kind, r.tag, code, body⟩ carried ∧
            (body ≠ [] → code = .ok ∧ (r.kind = kindStatus ∨ r.kind = kindRead)) ∧
            (carried ≠ {} → r.kind = kindStatus))

/-- R184: the list bodies, CUE_OPEN and LAW_LOAD hold what their byte positions say, high byte first, the numbered items are read
from 1, and the enumerated fields of LINE_SETUP have the values of the table. -/
def Obligations.ListBodiesReadAsLaidOut : Prop :=
  (∀ (slot : Byte) (ms : List MoveFields), ms.length < 256 →
    (∀ m ∈ ms, m.channel < 65536 ∧ m.target < 65536 ∧ (∀ n, m.ownTime = some n → n < 65535) ∧
      (∀ n, m.ownDelay = some n → n < 65535)) →
    readCueMoves (slot :: byteOf ms.length :: ms.flatMap fun m =>
        bytes16 m.channel ++ bytes16 m.target ++ bytes16 (m.ownTime.getD 65535) ++ bytes16 (m.ownDelay.getD 65535)) =
      some (slot.toNat, ms)) ∧
  (∀ (playback t1 t0 : Byte) (ps : List (Nat × Nat)), ps.length < 256 → (∀ x ∈ ps, x.1 < 65536 ∧ x.2 < 65536) →
    readManual (playback :: t1 :: t0 :: byteOf ps.length :: ps.flatMap fun x => bytes16 x.1 ++ bytes16 x.2) =
      some ⟨playback.toNat, t1.toNat * 256 + t0.toNat, ps⟩) ∧
  (∀ (look priority : Byte) (es : List (Nat × Nat)), es.length < 256 → (∀ x ∈ es, x.1 < 65536 ∧ x.2 < 65536) →
    readLookSet (look :: priority :: byteOf es.length :: es.flatMap fun x => bytes16 x.1 ++ bytes16 x.2) =
      some ⟨look.toNat, priority.toNat, es⟩) ∧
  (∀ (batch : List MoveFields) (ms : List Move), checkMoves batch = some ms ↔
    batch.map (fun m => (m.channel, m.target, m.ownTime.map (min · 9999), m.ownDelay.map (min · 9999))) =
      ms.map fun m => (m.channel.val + 1, m.target, m.ownTime, m.ownDelay)) ∧
  (∀ (ps : List (Nat × Nat)) (qs : List (Fin 512 × Nat)), checkPairs ps = some qs ↔
    ps = qs.map fun x => (x.1.val + 1, x.2)) ∧
  (∀ (ps : List (Nat × Nat)) (es : List LookEntry), checkEntries ps = some es ↔
    ps = es.map fun x => (x.circuit.val + 1, x.level)) ∧
  (∀ (slot fs : Byte) (cue up down upDelay downDelay followTime declared : Nat),
    (∀ n ∈ [cue, up, down, upDelay, downDelay, followTime, declared], n < 65536) →
      readCueOpen ([slot] ++ bytes16 cue ++ bytes16 up ++ bytes16 down ++ bytes16 upDelay ++ bytes16 downDelay ++ [fs] ++
          bytes16 followTime ++ bytes16 declared) =
        some ⟨slot.toNat, cue, up, down, upDelay, downDelay, if fs = 0xFF then none else some (fs.toNat, followTime), declared⟩) ∧
  (∀ (index : Byte) (p : Points), (∀ v ∈ p.cells, v < 65536) →
    readLawLoad (index :: p.cells.flatMap bytes16) = some (index.toNat, p)) ∧
  (∀ n look : Nat,
    activeValue n = (match n with | 0 => some .low | 1 => some .high | _ => none) ∧
    edgesValue n = (match n with | 0 => some .noEdge | 1 => some .assertion | 2 => some .release | 3 => some .both | _ => none) ∧
    (∀ action : LineAction, actionValue n look = some action ↔
      (n = 0 ∧ action = .notify) ∨ (n = 1 ∧ action = .freeze) ∨ (n = 2 ∧ ∃ k : Fin 4, look = k.val + 1 ∧ action = .look k)))

/-! ## Lead and silence (chapter 10) -/

/-- R163, R164: TAKE_LEAD and YIELD_LEAD under every lead, sender and force flag. -/
def Obligations.LeadRequestsFollowTheirTables : Prop :=
  (∀ (s : State) (l : Link) (tag b : Byte), AtHead s l ⟨kindTakeLead, tag, [b]⟩ →
    exec (.takeLead l tag [b]) s = .next (match deskOf l with
      | none => s.answered l .role
      | some d =>
        if b ≠ 0 ∧ b ≠ 1 then s.answered l .badField
        else if s.lead = some d then s.answered l .ok
        else if s.lead = none then State.answered { s with lead := some d } l .ok
        else if b = 1 then (State.notifyDesks { s with lead := some d } .leadTaken).answered l .ok
        else s.answered l .leadHeld)) ∧
  (∀ (s : State) (l : Link) (tag : Byte), AtHead s l ⟨kindYieldLead, tag, []⟩ →
    exec (.yieldLead l tag []) s = .next (match deskOf l with
      | none => s.answered l .role
      | some d => if s.lead = some d then State.answered { s with lead := none } l .ok else s.answered l .notLead))

/-- R161: LINK_SETUP under every sender, field and save state; the monitor of each LIVE link restarts at its new limit. -/
def Obligations.LinkSetupFollowsItsRule : Prop :=
  ∀ (s : State) (l : Link) (tag a b c f : Byte), AtHead s l ⟨kindLinkSetup, tag, [a, b, c, f]⟩ →
    let limit (x : Byte) : Nat := max 1 (min 63 x.toNat)
    let fresh (p : Port) (x : Byte) : Port := if p.state = .live then { p with monitor := some (limit x * 100) } else p
    exec (.linkSetup l tag [a, b, c, f]) s = .next (match deskOf l with
      | none => s.answered l .role
      | some d =>
        if f ≠ 0 ∧ f ≠ 1 then s.answered l .badField
        else if s.lead ≠ some d then s.answered l .notLead
        else if s.saving.map (·.cls) = some .rig then s.answered l .storeBusy
        else State.answered
          { s with
            rig := { s.rig with linkSetup := ⟨limit a, limit b, limit c, decide (f = 1)⟩ }
            ports := ⟨fresh s.ports.a a, fresh s.ports.b b, fresh s.ports.c c⟩ }
          l (if limit a = a.toNat ∧ limit b = b.toNat ∧ limit c = c.toNat then .ok else .clamped))

/-- R160, R165, R19, R119: the expiry of a LIVE link's monitor. For a desk: the port, the lead and FAILOVER, its fill and the
other desk's record of the slot so emptied; for the remote: the port and its parks. Everything else stands, and a stopped monitor
does not expire.
A row whose occasion is absent changes nothing by the model's choice (log 12). -/
def Obligations.SilenceExpiryActsOnItsLink : Prop :=
  ∀ (s : State), s.power = .running →
    let silent (p : Port) : Port :=
      { p with state := .silent, monitor := none, queue := if p.head = .untaken then [] else p.queue.take 1 }
    (∀ l, (s.port l).state = .silent → exec (.silenceMonitorExpiry l) s = .next s) ∧
    ((s.port .c).state = .live → exec (.silenceMonitorExpiry .c) s =
      .next (State.setPort { s with parks := s.parks.filter fun x => x.owner ≠ .c } .c (silent (s.port .c)))) ∧
    (∀ d, (s.port (linkOf d)).state = .live →
      let failover := s.lead = some d ∧ s.rig.linkSetup.failover = true ∧ (s.port (linkOf (otherDesk d))).state = .live
      ∃ t, exec (.silenceMonitorExpiry (linkOf d)) s = .next t ∧
        t.lead = (if s.lead = some d then (if failover then some (otherDesk d) else none) else s.lead) ∧
        t.port (linkOf d) = { silent (s.port (linkOf d)) with
          fill := none
          notices := if failover then { (s.port (linkOf d)).notices with failover := true }
            else (s.port (linkOf d)).notices } ∧
        (∀ m, m ≠ linkOf d → t.port m = { s.port m with
          fill := (t.port m).fill
          notices := if failover then { (s.port m).notices with failover := true } else (s.port m).notices }) ∧
        t.fill (otherDesk d) = ((s.fill (otherDesk d)).bind fun f =>
          if s.fill d = some ⟨f.slot, .filling⟩ then none else some f) ∧
        (t.port .c).fill = (s.port .c).fill ∧
        (∀ u, t.slot u = if s.fill d = some ⟨u, .filling⟩ then .empty else s.slot u) ∧
        t = { s with lead := t.lead, ports := t.ports, slots := t.slots })

/-- R155, R157, R159, R160, R162: every step keeps the ports and the lead legal; the lead names a LIVE link. -/
def Obligations.EveryStepKeepsTheLinksLegal : Prop :=
  ∀ (s t : State), s.LinksLegal → step s = .next t → t.LinksLegal

/-! ## STATUS and READ (chapters 10 and 12) -/

/-- R169, R185: STATUS is answered OK from any link in any role, with the 79 bytes of R185's table and the link's notices. -/
def Obligations.StatusReportsTheState : Prop :=
  ∀ (s : State) (l : Link) (tag : Byte), AtHead s l ⟨kindStatus, tag, []⟩ →
    ∃ body, exec (.status l tag []) s = .next (s.answerHead l .ok body (s.port l).notices) ∧
      body.length = 79 ∧
      body.take 4 = [match s.lead with | none => 0 | some .a => 1 | some .b => 2,
        if s.ports.a.state = .live then 1 else 0, if s.ports.b.state = .live then 1 else 0,
        if s.ports.c.state = .live then 1 else 0] ∧
      (∀ p : Fin 4, (body.drop (4 + 9 * p.val)).take 9 =
        bytes16 (s.playback p).currentCue ++ [if (s.playback p).held then 1 else 0, if s.frozen then 1 else 0] ++
        bytes16 (s.playback p).rate ++ bytes16 (s.playback p).master ++
        [byteOf (s.runList.filter fun e => e.playback = p).length]) ∧
      (body.drop 40).take 3 = bytes16 s.grand ++ [if s.blackout then 1 else 0] ∧
      (body.drop 43).take 6 = bytes16 (s.rack 0).lit ++ bytes16 (s.rack 1).lit ++ bytes16 (s.rack 2).lit ∧
      (body.drop 49).take 3 = [byteOf (s.liveBank.val + 1), if s.rebuild.isSome then 1 else 0,
        match s.saving with
        | none => 0
        | some ⟨.bank n, _⟩ => byteOf (n.val + 1)
        | some ⟨.rig, _⟩ => 5] ∧
      (∀ n : Fin 4, body[52 + n.val]? = some (if s.asserted n then 1 else 0) ∧
        body[56 + n.val]? = some (if s.raised n then 1 else 0)) ∧
      (body.drop 60).take 6 = bytes16 (4096 - s.reservedMoves) ++ bytes16 (2048 - s.heldPairs) ++ bytes16 s.lawFaults ∧
      (let x := (s.port l).notices
       let mark (b : Bool) : Byte := if b then 1 else 0
       body.drop 66 =
        [mark x.failover, mark x.leadTaken, mark x.forced, mark x.backLost, mark x.followLapsed, mark x.diverged,
         mark x.lawFault,
         mark (x.lineEdge.get 0) + 2 * mark (x.lineEdge.get 1) + 4 * mark (x.lineEdge.get 2) + 8 * mark (x.lineEdge.get 3),
         mark x.overrun, match x.restarted with | none => 0 | some .cold => 1 | some .dip => 2,
         mark x.saveLost, mark x.bankLost, mark x.rigLost])

/-- R170, R186: READ is answered BAD_FIELD exactly outside R170's table and OK inside it, with a page of the size and the bytes
that R186 gives; it changes nothing. -/
def Obligations.ReadAnswersPagesOfTheirSize : Prop :=
  ∀ (s : State) (l : Link) (tag page selector f1 f0 : Byte), AtHead s l ⟨kindRead, tag, [page, selector, f1, f0]⟩ →
    let first := f1.toNat * 256 + f0.toNat
    let sel : Prop := 1 ≤ selector.toNat ∧ selector.toNat ≤ 4
    let inside : Prop :=
      (page = 1 ∧ sel ∧ 1 ≤ first ∧ first ≤ 449) ∨ page = 2 ∨ page = 3 ∨ (page = 4 ∧ first ≤ 63) ∨
      (page = 5 ∧ 1 ≤ first ∧ first ≤ 705) ∨ (page = 6 ∧ sel ∧ first ≤ 1023) ∨ (page = 7 ∧ 1 ≤ first ∧ first ≤ 737) ∨
      (page = 8 ∧ 1 ≤ first ∧ first ≤ 4)
    (¬ inside → exec (.read l tag [page, selector, f1, f0]) s = .next (s.answered l .badField)) ∧
    (inside → ∃ body, exec (.read l tag [page, selector, f1, f0]) s = .next (s.answerHead l .ok body {}) ∧
      body.head? = some page ∧
      (∀ p : Fin 4, page = 1 → selector.toNat = p.val + 1 → body.length = 1028 ∧ body.take 4 = [1, selector, f1, f0] ∧
        ∀ (j : Fin 64) (c : Fin 512), c.val + 1 = first + j.val → (body.drop (4 + 16 * j.val)).take 16 =
          bytes16 (s.channel p c).level ++ match (s.channel p c).own with
            | none => [0, 0xFF] ++ List.replicate 12 0
            | some o => (match o.phase with | .waiting => [1] | .fading => [2]) ++ [byteOf o.owner.val] ++
              bytes16 o.start ++ bytes16 o.target ++ bytes32 o.delay ++ bytes32 o.time) ∧
      (page = 2 → body.length = 2 + 18 * s.runList.length ∧ body.take 2 = [2, byteOf s.runList.length] ∧
        ∀ j e, s.runList[j]? = some e → (body.drop (2 + 18 * j)).take 18 =
          (let place : List Byte := [byteOf e.number.val]
           let playback := byteOf (e.playback.val + 1)
           match e.kind with
            | .cue t c _ => place ++ [0, playback, byteOf t.val] ++ bytes16 c
            | .back c _ => place ++ [1, playback, 0xFF] ++ bytes16 c
            | .release => place ++ [2, playback, 0xFF, 0xFF, 0xFF]
            | .manual => place ++ [3, playback, 0xFF, 0xFF, 0xFF]) ++
          bytes32 e.clock ++ bytes16 e.owned ++
          (match e.follow with | some f => byteOf f.slot.val :: bytes32 f.due | none => [0xFF, 0, 0, 0, 0]) ++
          (match e.startedBy with | .desk .a => [1] | .desk .b => [2] | .follow => [3])) ∧
      (page = 3 → body.length = 257 ∧ ∀ t : Fin 32, (body.drop (1 + 8 * t.val)).take 8 = match s.slot t with
        | .empty => 0 :: List.replicate 7 0xFF
        | .filling h ms d => [1] ++ bytes16 h.cue ++ bytes16 h.declared ++ bytes16 ms.length ++
          (match d with | .a => [1] | .b => [2])
        | .ready h _ => [2] ++ bytes16 h.cue ++ bytes16 h.declared ++ List.replicate 3 0xFF
        | .running h _ => [3] ++ bytes16 h.cue ++ bytes16 h.declared ++ List.replicate 3 0xFF) ∧
      (page = 4 → body.length = 4 + 11 * (s.parks.length - first) ∧
        body.take 4 = [4, byteOf s.parks.length, f0, byteOf (s.parks.length - first)] ∧
        ∀ j x, s.parks[first + j]? = some x → (body.drop (4 + 11 * j)).take 11 =
          bytes16 (x.circuit.val + 1) ++
          (match x.flash with
            | none => 0 :: bytes16 x.levelA ++ [0, 0, 0xFF, 0xFF, 0xFF]
            | some f => 1 :: bytes16 x.levelA ++ bytes16 f.levelB ++ [byteOf f.onTime, byteOf f.offTime] ++
              (match f.phase with | .a => [0] | .b => [1])) ++
          (match x.owner with | .a => [1] | .b => [2] | .c => [3])) ∧
      (page = 5 → body.length = 137 ∧ body.take 3 = [5, f1, f0] ∧
        (∀ k : Fin 3, (body.drop (3 + 2 * k.val)).take 2 =
          if first ≤ 256 * k.val + 256 ∧ 256 * k.val + 1 ≤ first + 63 then
            (match (s.rack k).last with
              | some ⟨.bits8, _⟩ => [8, 0]
              | some ⟨.bits16, _⟩ => [16, 0]
              | none => [0, 1])
          else [0, 0]) ∧
        ∀ (j : Fin 64) (k : Fin 3) (i : Fin 256), 256 * k.val + i.val + 1 = first + j.val →
          (body.drop (9 + 2 * j.val)).take 2 =
            bytes16 (match (s.rack k).last with | some f => f.levels.get i | none => 0)) ∧
      (∀ n : Fin 4, page = 6 → selector.toNat = n.val + 1 → body.length = 7 + 5 * min 32 ((s.bank n).length - first) ∧
        body.take 7 = [6, selector, f1, f0] ++ bytes16 (s.bank n).length ++ [byteOf (min 32 ((s.bank n).length - first))] ∧
        ∀ j e, j < 32 → (s.bank n)[first + j]? = some e → (body.drop (7 + 5 * j)).take 5 =
          bytes16 (e.channel.val + 1) ++ bytes16 (e.circuit.val + 1) ++ [byteOf e.percent]) ∧
      (page = 7 → body.length = 228 ∧ body.take 4 = [7, f1, f0, byteOf s.rig.laws.length] ∧
        ∀ (j : Fin 32) (c : Fin 768), c.val + 1 = first + j.val →
          let x := s.rig.profiles.get c
          (body.drop (4 + 7 * j.val)).take 7 = [byteOf x.page, byteOf x.index] ++ bytes16 x.preheat ++ bytes16 x.topSet ++
            [if (x.page = 0 ∧ 5 ≤ x.index) ∨ (x.page ≠ 0 ∧ s.rig.laws.length ≤ x.index) then 1 else 0]) ∧
      (∀ p : Fin 4, page = 8 → first = p.val + 1 → body.length = 3 + 4 * (s.playback p).stack.length ∧
        body.take 3 = [8, f0, byteOf (s.playback p).stack.length] ∧
        ∀ j r, (s.playback p).stack[j]? = some r → (body.drop (3 + 4 * j)).take 4 =
          bytes16 r.priorCue ++ bytes16 r.pairs.length))

/-! ## Cue store (chapter 1) -/

/-- R6 to R14: CUE_OPEN under every sender, field and slot state; the sender's own fill has ended before the slot is decided
(R7), and a replacement counts the displaced entries as free (R11). -/
def Obligations.CueOpenFollowsItsTable : Prop :=
  ∀ (s : State) (l : Link) (tag : Byte) (body : List Byte) (f : CueOpenFields),
    readCueOpen body = some f → AtHead s l ⟨kindCueOpen, tag, body⟩ →
    let badFollow : Bool := f.follow.any fun x => 31 < x.1
    (deskOf l = none → exec (.cueOpen l tag body) s = .next (s.answered l .role)) ∧
    (∀ d, deskOf l = some d →
      (31 < f.slot ∨ f.cue = 0 ∨ 9999 < f.cue ∨ f.declared = 0 ∨ 512 < f.declared ∨ badFollow = true →
        exec (.cueOpen l tag body) s = .next (s.answered l .badField)) ∧
      (∀ (t : Fin 32) (follow : Option CueFollow),
        f.slot = t.val → 1 ≤ f.cue → f.cue ≤ 9999 → 1 ≤ f.declared → f.declared ≤ 512 →
        f.follow.map (fun x => (x.1, min x.2 9999)) = follow.map (fun x => (x.slot.val, x.tenths)) →
        let h : CueHeader := ⟨f.cue, min f.upTime 9999, min f.downTime 9999, min f.upDelay 9999, min f.downDelay 9999,
          follow, f.declared⟩
        let code : ResultCode :=
          if f.upTime ≤ 9999 ∧ f.downTime ≤ 9999 ∧ f.upDelay ≤ 9999 ∧ f.downDelay ≤ 9999 ∧
            (f.follow.all fun x => x.2 ≤ 9999) = true then .ok else .clamped
        let u := s.endFill d
        let replace (v : State) (displaced : Nat) : State :=
          if 4096 - v.reservedMoves + displaced < f.declared then v.answered l .storeFull
          else (v.startFill d t h).answered l code
        let absorbed (cue : Nat) : State := (u.setFill d (some ⟨t, .absorbing cue⟩)).answered l .echo
        let diverged (displaced : Nat) : State :=
          if s.lead = some d then replace (u.notifyDesks .diverged) displaced
          else (u.notifyDesks .diverged).answered l .notLead
        exec (.cueOpen l tag body) s = .next (match u.slot t with
          | .empty => replace u 0
          | .ready old _ =>
            if old.cue ≠ f.cue then diverged old.declared
            else if s.lead = some d then replace u old.declared else absorbed old.cue
          | .filling old _ _ => if old.cue ≠ f.cue then diverged old.declared else absorbed old.cue
          | .running old _ => if old.cue = f.cue ∧ s.lead ≠ some d then absorbed old.cue else u.answered l .slotRunning)))

/-- R4, R7, R8, R11, R19: what opening a slot, emptying a slot and ending a link's fill do to the slots and the fill records,
and that they touch nothing else. -/
def Obligations.FillsFollowTheirSlots : Prop :=
  ∀ (s : State) (d : Desk) (t : Fin 32),
    (∀ h : CueHeader,
      let v := s.startFill d t h
      (∀ u, v.slot u = if u = t then .filling h [] d else s.slot u) ∧
      v.fill d = some ⟨t, .filling⟩ ∧
      v.fill (otherDesk d) = ((s.fill (otherDesk d)).bind fun f =>
        if f.slot = t ∧ f.mode ≠ .absorbing h.cue then none else some f) ∧
      (∀ l, v.port l = { s.port l with fill := (v.port l).fill }) ∧ (v.port .c).fill = (s.port .c).fill ∧
      v = { s with ports := v.ports, slots := v.slots }) ∧
    (let v := s.emptySlot t
     (∀ u, v.slot u = if u = t then .empty else s.slot u) ∧
     (∀ e, v.fill e = (s.fill e).bind fun f => if f.slot = t then none else some f) ∧
     (∀ l, v.port l = { s.port l with fill := (v.port l).fill }) ∧ (v.port .c).fill = (s.port .c).fill ∧
     v = { s with ports := v.ports, slots := v.slots }) ∧
    (let v := s.endFill d
     v.fill d = none ∧
     (∀ u, s.fill d = some ⟨u, .filling⟩ → v.slots = (s.emptySlot u).slots ∧
       v.fill (otherDesk d) = (s.emptySlot u).fill (otherDesk d)) ∧
     ((∀ u, s.fill d ≠ some ⟨u, .filling⟩) → v.slots = s.slots ∧ v.fill (otherDesk d) = s.fill (otherDesk d)) ∧
     (∀ l, v.port l = { s.port l with fill := (v.port l).fill }) ∧ (v.port .c).fill = (s.port .c).fill ∧
     v = { s with ports := v.ports, slots := v.slots })

/-- R15: CUE_MOVES under every sender, batch and slot state, the checks in the order of the rule; taken, the moves join the
slot's list at its end. -/
def Obligations.CueMovesFollowsItsChecks : Prop :=
  ∀ (s : State) (l : Link) (tag : Byte) (body : List Byte) (slot : Nat) (batch : List MoveFields),
    readCueMoves body = some (slot, batch) → AtHead s l ⟨kindCueMoves, tag, body⟩ →
      exec (.cueMoves l tag body) s = .next (match deskOf l with
        | none => s.answered l .role
        | some d =>
          if (s.fill d).any (fun f => f.slot.val = slot && f.mode ≠ .filling) then s.answered l .echo
          else match indexed 32 slot, checkMoves batch with
            | some t, some ms =>
              if ms = [] ∨ 48 < ms.length then s.answered l .badField
              else match s.slot t with
                | .filling h held filler =>
                  if filler ≠ d then s.answered l .slotState
                  else if ¬ (ms.map (·.channel)).Nodup ∨ (∃ m ∈ ms, ∃ x ∈ held, x.channel = m.channel) then
                    s.answered l .badField
                  else if h.declared < held.length + ms.length then s.answered l .countMismatch
                  else (s.setSlot t (.filling h (held ++ ms) filler)).answered l
                    (if batch.all (fun m => m.ownTime.all (· ≤ 9999) && m.ownDelay.all (· ≤ 9999)) then .ok else .clamped)
                | _ => s.answered l .slotState
            | _, _ => s.answered l .badField)

/-- R16, R18: CUE_CLOSE and CUE_DROP under every sender, role and slot state. -/
def Obligations.CueCloseAndDropFollowTheirRules : Prop :=
  ∀ (s : State) (l : Link) (tag x : Byte),
    (AtHead s l ⟨kindCueClose, tag, [x]⟩ →
      exec (.cueClose l tag [x]) s = .next (match deskOf l with
        | none => s.answered l .role
        | some d =>
          if (s.fill d).any (fun f => f.slot.val = x.toNat && f.mode ≠ .filling) then (s.setFill d none).answered l .echo
          else match indexed 32 x.toNat with
            | none => s.answered l .badField
            | some t => match s.slot t with
              | .filling h held filler =>
                if filler ≠ d then s.answered l .slotState
                else if held.length = h.declared then ((s.setSlot t (.ready h held)).setFill d none).answered l .ok
                else (s.emptySlot t).answered l .countMismatch
              | _ => s.answered l .slotState)) ∧
    (AtHead s l ⟨kindCueDrop, tag, [x]⟩ →
      exec (.cueDrop l tag [x]) s = .next (match deskOf l with
        | none => s.answered l .role
        | some d => match indexed 32 x.toNat with
          | none => s.answered l .badField
          | some t =>
            if s.lead = some d then (match s.slot t with
              | .empty => s.answered l .ok
              | .filling _ _ _ => (s.emptySlot t).answered l .ok
              | .ready _ _ => (s.emptySlot t).answered l .ok
              | .running _ _ => s.answered l .slotRunning)
            else (match s.slot t with
              | .filling _ _ filler => if filler = d then (s.emptySlot t).answered l .ok else s.answered l .notLead
              | _ => s.answered l .notLead)))

/-- R1 to R4, R7, R8, R15 to R19: every step keeps the cue store legal: the reservations sum to at most 4096, every slot's header,
moves and counts stay in the ranges of R1 and R2, and the fill records and the slots name each other. -/
def Obligations.EveryStepKeepsTheCueStoreLegal : Prop :=
  ∀ (s t : State), s.CuesLegal → step s = .next t → t.CuesLegal

/-! ## Fade arithmetic (chapter 3) -/

/-- R52: an owned record at clock `e`: WAITING at the start level before D, then FADING by the step rounded down, then IDLE at
exactly the target; and R54: while it fades its level lies between start and target, does not reach the target, and never
moves away from it. -/
def Obligations.FadeLevelFollowsTheClock : Prop :=
  ∀ (o : Ownership) (e : Nat),
    (e < o.delay → evalOwned o e = ⟨o.start, some { o with phase := .waiting }⟩) ∧
    (o.delay ≤ e → e < o.delay + o.time →
      let level := (evalOwned o e).level
      (evalOwned o e).own = some { o with phase := .fading } ∧
      (o.start ≤ o.target → level = o.start + (o.target - o.start) * (e - o.delay) / o.time) ∧
      (o.target < o.start → level = o.start - (o.start - o.target) * (e - o.delay) / o.time) ∧
      min o.start o.target ≤ level ∧ level ≤ max o.start o.target ∧ (o.start ≠ o.target → level ≠ o.target) ∧
      (∀ e', e ≤ e' → e' < o.delay + o.time →
        (o.start ≤ o.target → level ≤ (evalOwned o e').level) ∧
        (o.target < o.start → (evalOwned o e').level ≤ level))) ∧
    (o.delay + o.time ≤ e → evalOwned o e = ⟨o.target, none⟩)

/-- R49, R50, R51: the direction, D and T a record takes at takeover: up when the target is at or above its level; a cue's move by
its own values or else its slot's, a BACK or MANUAL or RELEASE move by one time both ways. -/
def Obligations.TakeoverGivesDirectionDelayAndTime : Prop :=
  (∀ (h : CueHeader) (m : Move) (n : Fin 16) (level : Nat), ∃ k, cueTakes h [m] = [k] ∧ k.channel = m.channel ∧
    let o := k.ownership n level
    o.owner = n ∧ o.start = level ∧ o.target = m.target ∧
    (level ≤ m.target → o.delay = m.ownDelay.getD h.upDelay * 1000 ∧ o.time = m.ownTime.getD h.upTime * 1000) ∧
    (m.target < level → o.delay = m.ownDelay.getD h.downDelay * 1000 ∧ o.time = m.ownTime.getD h.downTime * 1000)) ∧
  (∀ (tenths : Nat) (c : Fin 512) (target level : Nat) (n : Fin 16),
    (flatTake tenths c target).channel = c ∧
    let o := (flatTake tenths c target).ownership n level
    o.owner = n ∧ o.start = level ∧ o.target = target ∧ o.delay = 0 ∧ o.time = tenths * 1000)

/-! ## Playbacks and the run list (chapters 2 and 4) -/

/-- R33, R35: GO under every sender, field, echo record, role, line, rebuild and slot state; the echo check comes before the
role. -/
def Obligations.GoFollowsItsChecks : Prop :=
  ∀ (s : State) (l : Link) (tag x y c1 c0 : Byte), AtHead s l ⟨kindGo, tag, [x, y, c1, c0]⟩ →
    let cue := c1.toNat * 256 + c0.toNat
    exec (.go l tag [x, y, c1, c0]) s = .next (match deskOf l, numbered 4 x.toNat, indexed 32 y.toNat with
      | none, _, _ => s.answered l .role
      | some d, some p, some t =>
        if cue = 0 ∨ 9999 < cue then s.answered l .badField
        else if (s.playback p).echoTimer.isSome && (s.playback p).echo.any (fun r => r.kind = .cue && r.cue = cue) then
          s.answered l .echo
        else if s.lead ≠ some d then s.answered l .notLead
        else if s.frozen then s.answered l .heldByLine
        else if s.rebuild.isSome then s.answered l .bankBusy
        else match s.slot t with
          | .running _ _ => s.answered l .slotRunning
          | .empty => s.answered l .slotState
          | .filling _ _ _ => s.answered l .slotState
          | .ready h ms => if h.cue = cue then (s.takeGo d p t h ms).answered l .ok else s.answered l .staleSlot
      | _, _, _ => s.answered l .badField)

/-- R24, R34 to R37: a taken GO makes its start in the state its first steps leave, with room made in a full run list: the new CUE
entry, the channels, the slot and the run list are as `CueStarted` says, its playback has its hold flag, current cue, echo record,
timer and stack set and the other playbacks stand. A follow of time 0 is then tested in the chain that has started this slot;
without one the GO ends there. Nothing outside the engine, the slots and the notice sets changes.
The birth count is the model's own (log 5); the extent of a chain is log 15. -/
def Obligations.TakenGoSetsItsPlayback : Prop :=
  ∀ (s : State) (d : Desk) (p : Fin 4) (t : Fin 32) (h : CueHeader) (ms : List Move),
    s.EngineLegal → s.slot t = .ready h ms →
      let u := s.cueStart [] p t h ms (.desk d)
      let v := s.takeGo d p t h ms
      CueStarted (s.beforeStart p t h ms (.desk d)).makeRoom p t h ms (.desk d) u ∧
      u.playback p = { s.playback p with
        held := false
        currentCue := h.cue
        echo := some ⟨.cue, h.cue, .desk d⟩
        echoTimer := some 2000
        stack := ((s.push p ms).playback p).stack } ∧
      (∀ q, q ≠ p → u.playback q = s.playback q) ∧
      u.births = s.births + 1 ∧
      v = State.testFollow 32 [t] [] s.births u ∧
      ((∀ f, h.follow = some f → 0 < f.tenths) → v = u) ∧
      (∀ l, v.port l = { s.port l with notices := (v.port l).notices }) ∧
      v = { s with ports := v.ports, slots := v.slots, playbacks := v.playbacks, channels := v.channels,
                   runList := v.runList, births := v.births }

/-- R24 to R28, R56: a start with room in the run list takes over the channels it names and no other: each takes its level and
phase at clock 0 from the level it held, under the lowest free entry number. It makes one run entry, at the end of the list, with
the kind, playback and starter it is given and clock 0; an entry left with nothing leaves, and with it the RUNNING state of
its slot. A start at a full list is the start with room made; a start of a kind without a follow ends with the entry's own test
for removal. Births are the model's own stamps (log 5). -/
def Obligations.StartTakesOverItsChannels : Prop :=
  (∀ (s : State) (firing : List Nat) (kind : EntryKind) (p : Fin 4) (who : StartedBy) (takes : List Take),
    s.OwnersLegal firing → s.runList.length < 16 → (takes.map (·.channel)).Nodup →
      let n := s.lowestFree
      let entry : RunEntry := ⟨n, s.births, kind, p, 0, 0, who⟩
      let v := s.start firing kind p who takes
      (∀ e ∈ s.runList, e.number ≠ n) ∧ (∀ m : Fin 16, m < n → ∃ e ∈ s.runList, e.number = m) ∧
      (∀ k ∈ takes, v.channel p k.channel = evalOwned (k.ownership n (s.channel p k.channel).level) 0) ∧
      (∀ c, c ∉ takes.map (·.channel) → v.channel p c = s.channel p c) ∧
      (∀ q c, q ≠ p → v.channel q c = s.channel q c) ∧
      v.runList = v.standing firing s.runList ++ (if takes = [] then [entry] else v.standing firing [entry]) ∧
      (∀ u, SlotFollows s (s.runList ++ [entry]) v u) ∧
      v = { s with channels := v.channels, runList := v.runList, slots := v.slots, births := s.births + 1 }) ∧
  (∀ (s : State) (firing : List Nat) (kind : EntryKind) (p : Fin 4) (who : StartedBy) (takes : List Take),
    s.runList.length ≤ 16 → s.start firing kind p who takes = s.makeRoom.start firing kind p who takes) ∧
  (∀ (s : State) (kind : EntryKind) (p : Fin 4) (who : StartedBy) (takes : List Take),
    s.plainStart kind p who takes = (s.start [] kind p who takes).testLeaveBorn [] s.births) ∧
  (∀ (s : State) (firing : List Nat) (b : Nat), s.RunListLegal →
    let v := s.testLeaveBorn firing b
    v.runList = s.runList.filter (fun e => e.birth ≠ b || e.stays firing) ∧
    (∀ u, SlotFollows s s.runList v u) ∧ v = { s with runList := v.runList, slots := v.slots })

/-- R63, R64, R66, R67: the push captures the level of each move's channel in move order and discards its own playback's oldest
entries, only as many as the depth and the room call for; without room even then the stack is left empty and BACK_LOST is
added to links A and B. -/
def Obligations.PushDiscardsOnlyForRoom : Prop :=
  ∀ (s : State) (p : Fin 4) (ms : List Move), s.RestoreLegal →
    let old := (s.playback p).stack
    let others := s.heldPairs - stackPairs old
    let pairs := ms.map fun m => (⟨m.channel, (s.channel p m.channel).level⟩ : RestorePair)
    ∃ k, k ≤ old.length ∧ k ≤ 7 ∧
      (∀ j, k < j → j ≤ old.length → j ≤ 7 → 2048 < others + stackPairs (old.take j) + ms.length) ∧
      ((others + stackPairs (old.take k) + ms.length ≤ 2048 ∧
        s.push p ms = s.setPlayback p { s.playback p with stack := ⟨(s.playback p).currentCue, pairs⟩ :: old.take k }) ∨
       (k = 0 ∧ 2048 < others + ms.length ∧
        s.push p ms = (s.setPlayback p { s.playback p with stack := [] }).notifyDesks .backLost))

/-- R63, R64, R68, R69: BACK under every sender, field, echo record, role, line, rebuild and stack; taken with room in the run
list, it pops the top entry, sets the playback back to the prior cue and fades each pair's channel to its level over the back
time, under a BACK entry that holds the popped pairs while it stands. At a full list it makes room first, as every start
does. Births are the model's own stamps (log 5). -/
def Obligations.BackFollowsItsRule : Prop :=
  (∀ (s : State) (l : Link) (tag x : Byte), AtHead s l ⟨kindBack, tag, [x]⟩ →
    exec (.back l tag [x]) s = .next (match deskOf l, numbered 4 x.toNat with
      | none, _ => s.answered l .role
      | some _, none => s.answered l .badField
      | some d, some p =>
        if (s.playback p).echoTimer.isSome && (s.playback p).echo.any (fun r => r.kind = .back && r.link ≠ .desk d) then
          s.answered l .echo
        else if s.lead ≠ some d then s.answered l .notLead
        else if s.frozen then s.answered l .heldByLine
        else if s.rebuild.isSome then s.answered l .bankBusy
        else match (s.playback p).stack with
          | [] => s.answered l .nothingBack
          | top :: rest => (s.takeBack d p top rest).answered l .ok)) ∧
  (∀ (s : State) (d : Desk) (p : Fin 4) (top : RestoreEntry) (rest : List RestoreEntry),
    s.EngineLegal → s.runList.length < 16 → (s.playback p).stack = top :: rest → top.pairs ≠ [] →
      let v := s.takeBack d p top rest
      v.playback p = { s.playback p with
        held := false
        stack := rest
        currentCue := top.priorCue
        echo := some ⟨.back, top.priorCue, .desk d⟩
        echoTimer := some 2000 } ∧
      (∀ q, q ≠ p → v.playback q = s.playback q) ∧
      (∀ x ∈ top.pairs, v.channel p x.channel = evalOwned
        ⟨s.lowestFree, .fading, (s.channel p x.channel).level, x.level, 0, (s.rig.playbacks.get p).backTime * 1000⟩ 0) ∧
      (∀ c, c ∉ top.pairs.map (·.channel) → v.channel p c = s.channel p c) ∧
      (∀ q c, q ≠ p → v.channel q c = s.channel q c) ∧
      v.runList = v.standing [] (s.runList ++
        [⟨s.lowestFree, s.births, .back top.priorCue top.pairs, p, 0, 0, .desk d⟩]) ∧
      (∀ u, SlotFollows s s.runList v u) ∧
      v = { s with slots := v.slots, playbacks := v.playbacks, channels := v.channels, runList := v.runList,
                   births := s.births + 1 }) ∧
  (∀ (s : State) (d : Desk) (p : Fin 4) (top : RestoreEntry) (rest : List RestoreEntry),
    s.takeBack d p top rest = State.plainStart
      (s.setPlayback p { s.playback p with
        held := false
        stack := rest
        currentCue := top.priorCue
        echo := some ⟨.back, top.priorCue, .desk d⟩
        echoTimer := some 2000 })
      (.back top.priorCue top.pairs) p (.desk d)
      (top.pairs.map fun x => flatTake (s.rig.playbacks.get p).backTime x.channel x.level))

/-- R38, R39, R72: MANUAL and RELEASE under every sender, field, role, line and rebuild; a RELEASE of a playback with every
channel IDLE at 0 makes no entry. -/
def Obligations.ManualAndReleaseFollowTheirRules : Prop :=
  (∀ (s : State) (l : Link) (tag : Byte) (body : List Byte) (f : ManualFields),
    readManual body = some f → AtHead s l ⟨kindManual, tag, body⟩ →
      exec (.manual l tag body) s = .next (match deskOf l, numbered 4 f.playback, checkPairs f.pairs with
        | none, _, _ => s.answered l .role
        | some d, some p, some pairs =>
          if pairs = [] ∨ 48 < pairs.length then s.answered l .badField
          else if s.lead ≠ some d then s.answered l .notLead
          else if ¬ (pairs.map (·.1)).Nodup then s.answered l .badField
          else if s.frozen then s.answered l .heldByLine
          else if s.rebuild.isSome then s.answered l .bankBusy
          else (s.plainStart .manual p (.desk d) (pairs.map fun x => flatTake (min f.time 9999) x.1 x.2)).answered l
            (if f.time ≤ 9999 then .ok else .clamped)
        | _, _, _ => s.answered l .badField)) ∧
  (∀ (s : State) (l : Link) (tag x : Byte), AtHead s l ⟨kindRelease, tag, [x]⟩ →
    exec (.release l tag [x]) s = .next (match deskOf l, numbered 4 x.toNat with
      | none, _ => s.answered l .role
      | some _, none => s.answered l .badField
      | some d, some p =>
        if s.lead ≠ some d then s.answered l .notLead
        else if s.frozen then s.answered l .heldByLine
        else if s.rebuild.isSome then s.answered l .bankBusy
        else
          let u := s.setPlayback p { s.playback p with stack := [], currentCue := 0 }
          let cs := (List.finRange 512).filter fun c => 0 < (s.channel p c).level ∨ (s.channel p c).own.isSome
          if cs = [] then u.answered l .ok
          else (u.plainStart .release p (.desk d)
            (cs.map fun c => flatTake (s.rig.playbacks.get p).releaseTime c 0)).answered l .ok))

/-- R40, R41, R42: HOLD, RESUME, RATE and PB_LEVEL under every sender, field and role. No line, rebuild or save refuses
them. -/
def Obligations.SteeringRequestsFollowTheirRules : Prop :=
  let holds (s : State) (l : Link) (x : Byte) (b : Bool) : State :=
    match deskOf l with
    | none => s.answered l .role
    | some d =>
      if 4 < x.toNat then s.answered l .badField
      else if s.lead ≠ some d then s.answered l .notLead
      else State.answered
        { s with playbacks := Table.tabulate fun p =>
          if x = 0 ∨ x.toNat = p.val + 1 then { s.playback p with held := b } else s.playback p } l .ok
  (∀ (s : State) (l : Link) (tag x : Byte),
    (AtHead s l ⟨kindHold, tag, [x]⟩ → exec (.hold l tag [x]) s = .next (holds s l x true)) ∧
    (AtHead s l ⟨kindResume, tag, [x]⟩ → exec (.resume l tag [x]) s = .next (holds s l x false))) ∧
  (∀ (s : State) (l : Link) (tag x hi lo : Byte),
    let n := hi.toNat * 256 + lo.toNat
    (AtHead s l ⟨kindRate, tag, [x, hi, lo]⟩ →
      exec (.rate l tag [x, hi, lo]) s = .next (match deskOf l, numbered 4 x.toNat with
        | none, _ => s.answered l .role
        | some _, none => s.answered l .badField
        | some d, some p =>
          if s.lead ≠ some d then s.answered l .notLead
          else (s.setPlayback p { s.playback p with rate := max 1 (min 400 n) }).answered l
            (if 1 ≤ n ∧ n ≤ 400 then .ok else .clamped))) ∧
    (AtHead s l ⟨kindPbLevel, tag, [x, hi, lo]⟩ →
      exec (.pbLevel l tag [x, hi, lo]) s = .next (match deskOf l, numbered 4 x.toNat with
        | none, _ => s.answered l .role
        | some _, none => s.answered l .badField
        | some d, some p =>
          if s.lead ≠ some d then s.answered l .notLead
          else (s.setPlayback p { s.playback p with master := n }).answered l .ok)))

/-- R31, R32, R26, R58: a tick with every clock stopped changes nothing; a tick with no follow pending advances each entry of a
running playback by its rate, gives every channel it owns its level at the new clock, and lets the entries left without a
channel go, in order. Every tick visits the entries that stand when it begins, oldest first: one that has left or whose clock is
stopped is passed over; any other is advanced and evaluated, and its follow then tested in a chain of its own (log 15). -/
def Obligations.FadeTickAdvancesTheRunningEntries : Prop :=
  (∀ (s : State), s.power = .running →
    ((∀ p, s.clockRuns p = false) → exec .fadeTick s = .next s) ∧
    (s.EngineLegal → (∀ e ∈ s.runList, e.follow = none) →
      ∃ t, exec .fadeTick s = .next t ∧
        (∀ p c, t.channel p c = match (s.channel p c).own with
          | none => s.channel p c
          | some o => match s.entry? o.owner with
            | none => s.channel p c
            | some e => if s.clockRuns p then evalOwned o (e.clock + (s.playback p).rate) else s.channel p c) ∧
        t.runList = (s.runList.map fun e =>
          if s.clockRuns e.playback then
            { e with
              clock := e.clock + (s.playback e.playback).rate
              owned := (t.channels.get e.playback).count (ownedBy e.number) }
          else e).filter (fun e => 0 < e.owned) ∧
        (∀ u, t.slot u = s.slot u ∨ t.slot u = (s.slot u).toReady) ∧
        t = { s with channels := t.channels, runList := t.runList, slots := t.slots }) ∧
    exec .fadeTick s = .next ((s.runList.map (·.birth)).foldl State.visit s)) ∧
  (∀ (s : State) (b : Nat), (∀ e ∈ s.runList, e.birth ≠ b) → s.visit b = s) ∧
  (∀ (s : State) (e : RunEntry), s.RunListLegal → e ∈ s.runList →
    (s.clockRuns e.playback = false → s.visit e.birth = s) ∧
    (s.clockRuns e.playback = true → s.OwnersLegal [] →
      let clock := e.clock + (s.playback e.playback).rate
      ∃ u, s.visit e.birth = State.testFollow 32 [] [] e.birth u ∧
        (∀ c, u.channel e.playback c = match (s.channel e.playback c).own with
          | none => s.channel e.playback c
          | some o => if o.owner = e.number then evalOwned o clock else s.channel e.playback c) ∧
        (∀ q c, q ≠ e.playback → u.channel q c = s.channel q c) ∧
        u.runList = u.standing [] (s.runList.map fun x => if x.birth = e.birth then { x with clock := clock } else x) ∧
        (∀ t, SlotFollows s s.runList u t) ∧
        u = { s with channels := u.channels, runList := u.runList, slots := u.slots }))

/-- R36, R37: FOLLOW_DUE on a follow that is due on a running clock: it lapses with FOLLOW_LAPSED to links A and B unless its slot
is READY, and fires as a GO started by FOLLOW when it is, its start as `CueStarted` says. A follow not yet due, or on a stopped
clock, stays pending (the model's choice of log 8). Every test of a follow, in a tick or a start: not due, only the entry's
removal is tested; due, it is cleared, and it lapses if its slot is not READY or has been started in the chain (log 15), or
fires, the follow of the cue it starts tested in the chain with that slot; no chain runs out of starts.
A row whose occasion is absent changes nothing by the model's choice (log 12). Births are the model's own stamps (log 5). -/
def Obligations.FollowDueFiresOrLapses : Prop :=
  (∀ (s : State) (n : Fin 16), s.power = .running → s.EngineLegal →
    (s.entry? n = none → exec (.followDue n) s = .next s) ∧
    (∀ e, s.entry? n = some e → s.clockRuns e.playback = false ∨ (∀ f, e.follow = some f → e.clock < f.due) →
      exec (.followDue n) s = .next s) ∧
    (∀ e f, s.entry? n = some e → s.clockRuns e.playback = true → e.follow = some f → f.due ≤ e.clock →
      exec (.followDue n) s = .next (State.testFollow 32 [] [] e.birth s) ∧
      ((∀ h ms, s.slot f.slot ≠ .ready h ms) → exec (.followDue n) s =
        .next (((s.modEntry n RunEntry.clearFollow).notifyDesks .followLapsed).testLeave [] n)) ∧
      (∀ h ms, s.slot f.slot = .ready h ms →
        let c := s.modEntry n RunEntry.clearFollow
        let u := c.cueStart [e.birth] e.playback f.slot h ms .follow
        ∃ t, exec (.followDue n) s = .next t ∧
          t = (State.testFollow 31 [f.slot] [e.birth] s.births u).testLeaveBorn [] e.birth ∧
          u.playback e.playback = { s.playback e.playback with
            held := false
            currentCue := h.cue
            echo := some ⟨.cue, h.cue, .follow⟩
            echoTimer := some 2000
            stack := ((s.push e.playback ms).playback e.playback).stack } ∧
          (∀ q, q ≠ e.playback → u.playback q = s.playback q) ∧ u.births = s.births + 1 ∧
          (∀ x ∈ u.runList, x.birth = e.birth → x.follow = none) ∧
          ((∀ g, h.follow = some g → 0 < g.tenths) → t = u.testLeaveBorn [] e.birth ∧
            CueStarted (c.beforeStart e.playback f.slot h ms .follow).makeRoom e.playback f.slot h ms .follow t) ∧
          (∀ l, t.port l = { s.port l with notices := (t.port l).notices }) ∧
          t = { s with ports := t.ports, slots := t.slots, playbacks := t.playbacks, channels := t.channels,
                       runList := t.runList, births := t.births }))) ∧
  (∀ (s : State) (fuel : Nat) (chain : List (Fin 32)) (firing : List Nat) (b : Nat),
    (s.born? b = none → State.testFollow fuel chain firing b s = s) ∧
    (∀ e, s.born? b = some e → (∀ f, e.follow = some f → e.clock < f.due) →
      State.testFollow fuel chain firing b s = s.testLeaveBorn firing b) ∧
    (∀ e f, s.born? b = some e → e.follow = some f → f.due ≤ e.clock →
      let c := s.modEntry e.number RunEntry.clearFollow
      ((∀ h ms, s.slot f.slot ≠ .ready h ms) ∨ f.slot ∈ chain →
        State.testFollow fuel chain firing b s = (c.notifyDesks .followLapsed).testLeaveBorn firing b) ∧
      (∀ h ms, s.slot f.slot = .ready h ms → f.slot ∉ chain → chain.Nodup → 32 ≤ fuel + chain.length →
        State.testFollow fuel chain firing b s =
          (State.testFollow (fuel - 1) (f.slot :: chain) (b :: firing) s.births
            (c.cueStart (b :: firing) e.playback f.slot h ms .follow)).testLeaveBorn firing b)))

/-- R34, R116: the echo timer stops and the echo record stays; a flash timer toggles the phase of its park and restarts with the
time of the new phase.
A row whose occasion is absent changes nothing by the model's choice (log 12). -/
def Obligations.EchoAndFlashTimersExpire : Prop :=
  ∀ (s : State), s.power = .running →
    (∀ p, exec (.echoTimerExpiry p) s = .next (s.setPlayback p { s.playback p with echoTimer := none })) ∧
    (∀ c, exec (.flashTimerExpiry c) s = .next { s with parks := s.parks.map fun x =>
      match x.flash with
      | some f => if x.circuit = c then
          { x with flash := some (match f.phase with
            | .a => { f with phase := .b, timer := f.offTime * 20 }
            | .b => { f with phase := .a, timer := f.onTime * 20 }) }
          else x
      | none => x })

/-- R30: a start that finds 16 entries sends the oldest entry's channels to their targets, removes that entry with its follow
and adds FORCED to every link; a shorter list is left alone. -/
def Obligations.FullRunListForcesItsOldest : Prop :=
  ∀ (s : State), s.RunListLegal →
    (s.runList.length < 16 → s.makeRoom = s) ∧
    (∀ e rest, s.runList = e :: rest → rest.length = 15 →
      let v := s.makeRoom
      v.runList = rest ∧
      (∀ p c, v.channel p c = match (s.channel p c).own with
        | some o => if p = e.playback ∧ o.owner = e.number then ⟨o.target, none⟩ else s.channel p c
        | none => s.channel p c) ∧
      (∀ u, v.slot u = match e.kind with
        | .cue t _ _ => if u = t then (s.slot u).toReady else s.slot u
        | _ => s.slot u) ∧
      (∀ l, v.port l = { s.port l with notices := { (s.port l).notices with forced := true } }) ∧
      v = { s with ports := v.ports, slots := v.slots, channels := v.channels, runList := v.runList })

/-- R25: every step keeps the run list legal: at most 16 entries, oldest first, no entry number twice.
Births are the model's own stamps (log 5). -/
def Obligations.EveryStepKeepsTheRunListLegal : Prop :=
  ∀ (s t : State), s.RunListLegal → step s = .next t → t.RunListLegal

/-- R17, R25, R26: every step keeps the engine legal: owners are listed entries, owned counts count their records, and RUNNING
slots and CUE entries name each other. -/
def Obligations.EveryStepKeepsTheEngineLegal : Prop :=
  ∀ (s t : State), s.EngineLegal → step s = .next t → t.EngineLegal

/-- R63, R64, R66: every step keeps the restore area within 2048 pairs and each stack within 8 entries. -/
def Obligations.EveryStepKeepsTheRestoreAreaLegal : Prop :=
  ∀ (s t : State), s.RestoreLegal → step s = .next t → t.RestoreLegal

/-- Conventions, R22, R54, R102: every step keeps every level of the slots, the channel records, the restore pairs in stacks and
BACK entries, the masters, the grand master and the last frames within 0..65535, and every owned record between its start and
its target; the frames need the rig record's top-sets legal. -/
def Obligations.EveryStepKeepsTheLevelsLegal : Prop :=
  ∀ (s t : State), s.RigLegal → s.LevelsLegal → step s = .next t → t.LevelsLegal

/-! ## Patch unit (chapter 5) -/

/-- R80 to R83: PATCH_SET under every sender, field, rebuild, save and bank; taken, the bank holds the pair at the percent, held to
100, or no longer at percent 0, and every other entry as before. -/
def Obligations.PatchSetFollowsItsTable : Prop :=
  (∀ (s : State) (l : Link) (tag b c1 c0 d1 d0 p : Byte), AtHead s l ⟨kindPatchSet, tag, [b, c1, c0, d1, d0, p]⟩ →
    exec (.patchSet l tag [b, c1, c0, d1, d0, p]) s =
      .next (match deskOf l, numbered 4 b.toNat, numbered 512 (c1.toNat * 256 + c0.toNat),
          numbered 768 (d1.toNat * 256 + d0.toNat) with
        | none, _, _, _ => s.answered l .role
        | some d, some n, some c, some k =>
          if s.lead ≠ some d then s.answered l .notLead
          else if s.rebuild.isSome ∧ (s.liveBank = n ∨ s.rebuild.map (·.bank) = some n) then s.answered l .bankBusy
          else if s.saving.map (·.cls) = some (.bank n) then s.answered l .storeBusy
          else if p ≠ 0 ∧ (∀ e ∈ s.bank n, ¬ (e.channel = c ∧ e.circuit = k)) ∧ 1024 ≤ (s.bank n).length then
            s.answered l .listFull
          else
            let u := s.setBank n (patchBank c k (min p.toNat 100) (s.bank n))
            let v := if s.liveBank = n ∧ s.rebuild = none then
              { u with liveMap := s.liveMap.modify k (patchFeeders c (min p.toNat 100)) } else u
            v.answered l (if p.toNat ≤ 100 then .ok else .clamped)
        | _, _, _, _ => s.answered l .badField)) ∧
  (∀ (b : List PatchEntry) (c : Fin 512) (k : Fin 768) (percent : Nat) (x : PatchEntry), BankLegal b →
    (x ∈ patchBank c k percent b ↔
      (x ∈ b ∧ ¬ (x.channel = c ∧ x.circuit = k)) ∨ (percent ≠ 0 ∧ x = ⟨c, k, percent⟩)))

/-- R80, R84, R85, R92: BANK_CLEAR, BANK_COPY and START_BANK under every sender, field, rebuild, live bank and save. -/
def Obligations.BankClearCopyAndStartFollowTheirRules : Prop :=
  ∀ (s : State) (l : Link) (tag x y : Byte),
    let overwrite (n : Fin 4) (bank : List PatchEntry) : State :=
      if s.rebuild.map (·.bank) = some n then s.answered l .bankBusy
      else if s.liveBank = n then s.answered l .bankLive
      else if s.saving.map (·.cls) = some (.bank n) then s.answered l .storeBusy
      else (s.setBank n bank).answered l .ok
    (AtHead s l ⟨kindBankClear, tag, [x]⟩ →
      exec (.bankClear l tag [x]) s = .next (match deskOf l, numbered 4 x.toNat with
        | none, _ => s.answered l .role
        | some _, none => s.answered l .badField
        | some d, some n => if s.lead ≠ some d then s.answered l .notLead else overwrite n [])) ∧
    (AtHead s l ⟨kindBankCopy, tag, [x, y]⟩ →
      exec (.bankCopy l tag [x, y]) s = .next (match deskOf l, numbered 4 x.toNat, numbered 4 y.toNat with
        | none, _, _ => s.answered l .role
        | some d, some m, some n => if s.lead ≠ some d then s.answered l .notLead else overwrite n (s.bank m)
        | _, _, _ => s.answered l .badField)) ∧
    (AtHead s l ⟨kindStartBank, tag, [x]⟩ →
      exec (.startBank l tag [x]) s = .next (match deskOf l, numbered 4 x.toNat with
        | none, _ => s.answered l .role
        | some _, none => s.answered l .badField
        | some d, some n =>
          if s.lead ≠ some d then s.answered l .notLead
          else if s.saving.map (·.cls) = some .rig then s.answered l .storeBusy
          else State.answered { s with rig := { s.rig with startBank := n } } l .ok))

/-- R86, R87, R88, R151, R179: BANK_SELECT under every sender, field, rebuild, run list and save, holding the head of its link's
queue; and the end of a rebuild: the bank is live, the map holds its entries, the select is answered OK, and after a cold
start each rack line takes its first frame start and RESTARTED(COLD) is added.
That the live map stands until the end of the rebuild and is then made whole is the model's choice (log 17), and so are the bytes
a rack line holds as sent (log 6).
A row whose occasion is absent changes nothing by the model's choice (log 12). -/
def Obligations.BankSelectAndRebuildEndFollowTheirRules : Prop :=
  (∀ (s : State) (l : Link) (tag x : Byte), AtHead s l ⟨kindBankSelect, tag, [x]⟩ →
    exec (.bankSelect l tag [x]) s = .next (match deskOf l, numbered 4 x.toNat with
      | none, _ => s.answered l .role
      | some _, none => s.answered l .badField
      | some d, some n =>
        if s.lead ≠ some d then s.answered l .notLead
        else if s.rebuild.isSome then s.answered l .bankBusy
        else if s.runList ≠ [] then s.answered l .cuesRunning
        else if s.saving.map (·.cls) = some (.bank n) then s.answered l .storeBusy
        else State.setPort { s with rebuild := some ⟨n, some d, false⟩ } l { s.port l with head := .timed })) ∧
  (∀ (s : State), s.power = .running →
    (s.rebuild = none → exec .rebuildEnd s = .next s) ∧
    (∀ n reply cold, s.rebuild = some ⟨n, reply, cold⟩ →
      let u : State := { s with liveMap := Table.tabulate (feedersOf (s.bank n)), liveBank := n, rebuild := none }
      (cold = false → reply = none → exec .rebuildEnd s = .next u) ∧
      (∀ d, cold = false → reply = some d → (s.port (linkOf d)).head = .timed →
        exec .rebuildEnd s = .next (u.answered (linkOf d) .ok)) ∧
      (cold = true → reply = none → ∃ t, exec .rebuildEnd s = .next t ∧
        (∀ k, t.rack k = ⟨some (s.rig.racks.get k).period, some (u.computeFrame k),
          (u.computeFrame k).levels.count (fun v => 32768 ≤ v), (u.computeFrame k).bytes⟩) ∧
        (∀ m, t.port m = { s.port m with notices := { (s.port m).notices with restarted := some .cold } }) ∧
        t = { u with ports := t.ports, racks := t.racks })))

/-- R75, R77, R83, R88: every step keeps the banks legal and, outside a rebuild, the live circuit map exactly the live bank's
entries, each once under its circuit. -/
def Obligations.EveryStepKeepsTheLiveMapOfTheLiveBank : Prop :=
  ∀ (s t : State), s.PatchLegal → step s = .next t → t.PatchLegal

/-! ## Rig record (chapters 2, 6, 8, 9) -/

/-- R43, R150, R134: PLAYBACK_SETUP, RACK_SETUP and LOOK_SET under every sender, field, role and save. -/
def Obligations.SetupRequestsFollowTheirRules : Prop :=
  (∀ (s : State) (l : Link) (tag x b1 b0 r1 r0 : Byte), AtHead s l ⟨kindPlaybackSetup, tag, [x, b1, b0, r1, r0]⟩ →
    let backTime := b1.toNat * 256 + b0.toNat
    let releaseTime := r1.toNat * 256 + r0.toNat
    exec (.playbackSetup l tag [x, b1, b0, r1, r0]) s = .next (match deskOf l, numbered 4 x.toNat with
      | none, _ => s.answered l .role
      | some _, none => s.answered l .badField
      | some d, some p =>
        if s.lead ≠ some d then s.answered l .notLead
        else if s.saving.map (·.cls) = some .rig then s.answered l .storeBusy
        else State.answered
          { s with rig := { s.rig with
            playbacks := s.rig.playbacks.set p ⟨min backTime 9999, min releaseTime 9999⟩ } } l
          (if backTime ≤ 9999 ∧ releaseTime ≤ 9999 then .ok else .clamped))) ∧
  (∀ (s : State) (l : Link) (tag x res ms : Byte), AtHead s l ⟨kindRackSetup, tag, [x, res, ms]⟩ →
    exec (.rackSetup l tag [x, res, ms]) s = .next (match deskOf l, numbered 3 x.toNat with
      | none, _ => s.answered l .role
      | some _, none => s.answered l .badField
      | some d, some k =>
        if res ≠ 8 ∧ res ≠ 16 then s.answered l .badField
        else if s.lead ≠ some d then s.answered l .notLead
        else if s.saving.map (·.cls) = some .rig then s.answered l .storeBusy
        else State.answered
          { s with rig := { s.rig with
            racks := s.rig.racks.set k ⟨if res = 8 then .bits8 else .bits16, max 20 (min 50 ms.toNat)⟩ } } l
          (if 20 ≤ ms.toNat ∧ ms.toNat ≤ 50 then .ok else .clamped))) ∧
  (∀ (s : State) (l : Link) (tag : Byte) (body : List Byte) (f : LookFields),
    readLookSet body = some f → AtHead s l ⟨kindLookSet, tag, body⟩ →
      exec (.lookSet l tag body) s = .next (match deskOf l, numbered 4 f.look, checkEntries f.entries with
        | none, _, _ => s.answered l .role
        | some d, some k, some es =>
          if 3 < f.priority then s.answered l .badField
          else if s.lead ≠ some d then s.answered l .notLead
          else if 128 < es.length then s.answered l .listFull
          else if ¬ (es.map (·.circuit)).Nodup then s.answered l .badField
          else if s.saving.map (·.cls) = some .rig then s.answered l .storeBusy
          else State.answered { s with rig := { s.rig with looks := s.rig.looks.set k ⟨f.priority, sortLook es⟩ } } l .ok
        | _, _, _ => s.answered l .badField)) ∧
  (∀ es : List LookEntry, (es.map (·.circuit)).Nodup →
    (sortLook es).Pairwise (fun a b => a.circuit < b.circuit) ∧ (sortLook es).Perm es)

/-- R104 to R108: PROFILE_SET and LAW_LOAD under every sender, field, role, rebuild and save; the law-fault count and the
LAW_FAULT notices follow. -/
def Obligations.ProfileAndLawRequestsFollowTheirRules : Prop :=
  (∀ (s : State) (l : Link) (tag c1 c0 page index h1 h0 t1 t0 : Byte),
    AtHead s l ⟨kindProfileSet, tag, [c1, c0, page, index, h1, h0, t1, t0]⟩ →
    let preheat := h1.toNat * 256 + h0.toNat
    let topSet := t1.toNat * 256 + t0.toNat
    exec (.profileSet l tag [c1, c0, page, index, h1, h0, t1, t0]) s =
      .next (match deskOf l, numbered 768 (c1.toNat * 256 + c0.toNat) with
        | none, _ => s.answered l .role
        | some _, none => s.answered l .badField
        | some d, some c =>
          if 1 < page.toNat ∨ 7 < index.toNat then s.answered l .badField
          else if s.lead ≠ some d then s.answered l .notLead
          else if topSet < preheat then s.answered l .badField
          else if s.rebuild.isSome then s.answered l .bankBusy
          else if s.saving.map (·.cls) = some .rig then s.answered l .storeBusy
          else
            let profiles := s.rig.profiles.set c ⟨page.toNat, index.toNat, preheat, topSet⟩
            let u : State := { s with
              rig := { s.rig with profiles := profiles }
              lawFaults := profiles.count (undefinedLaw s.rig.laws) }
            let undefined : Prop :=
              (page = 0 ∧ 5 ≤ index.toNat) ∨ (page ≠ 0 ∧ s.rig.laws.length ≤ index.toNat)
            (if undefined then u.notifyAll .lawFault else u).answered l .ok)) ∧
  (∀ (s : State) (l : Link) (tag : Byte) (body : List Byte) (i : Nat) (p : Points),
    readLawLoad body = some (i, p) → AtHead s l ⟨kindLawLoad, tag, body⟩ →
      exec (.lawLoad l tag body) s = .next (match deskOf l with
        | none => s.answered l .role
        | some d =>
          if 7 < i then s.answered l .badField
          else if s.lead ≠ some d then s.answered l .notLead
          else if s.rig.laws.length < i then s.answered l .badField
          else if ¬ p.cells.Pairwise (· ≤ ·) then s.answered l .badField
          else if s.saving.map (·.cls) = some .rig then s.answered l .storeBusy
          else
            let laws := if i < s.rig.laws.length then s.rig.laws.set i p else s.rig.laws ++ [p]
            State.answered
              { s with rig := { s.rig with laws := laws }, lawFaults := s.rig.profiles.count (undefinedLaw laws) } l .ok))

/-- R97, R98, R99: the built-in point laws have the points of the table; a law of seventeen points gives in each segment its lower
point and the rounded part of the step to the upper one; a legal one gives its points at their raw levels, lies between
neighbouring points and never falls, and LINEAR is the identity. A page and an index name the law: page 0 the built-in laws,
page 1 the user law of that index, LINEAR for an undefined one (R101).
The indices of the built-in laws are the order in which R97 names them (log 9). -/
def Obligations.PointLawsInterpolate : Prop :=
  (∀ p : Points, Points.Legal p →
    (∀ i : Fin 16, interpolate p (4096 * i.val) = p.get (Fin.castSucc i)) ∧
    interpolate p 65535 = p.get 16 ∧
    (∀ (i : Fin 16) (r : Nat), 4096 * i.val ≤ r → r < 4096 * (i.val + 1) →
      p.get (Fin.castSucc i) ≤ interpolate p r ∧ interpolate p r ≤ p.get (Fin.succ i)) ∧
    (∀ r r' : Nat, r ≤ r' → r' ≤ 65535 → interpolate p r ≤ interpolate p r')) ∧
  (∀ r : Nat, r ≤ 65535 → interpolate linearPoints r = r) ∧
  (∀ (p : Points) (i : Fin 16) (r : Nat), 4096 * i.val ≤ r → r < 4096 * (i.val + 1) →
    interpolate p r = p.get (Fin.castSucc i) + (p.get (Fin.succ i) - p.get (Fin.castSucc i)) * (r - 4096 * i.val) /
      (if i = 15 then 4095 else 4096)) ∧
  (∀ i : Fin 17,
    linearPoints.get i = (if i = 16 then 65535 else 4096 * i.val) ∧
    squarePoints.get i = (if i = 16 then 65535 else if i = 0 then 0 else 256 * i.val ^ 2 - 1) ∧
    faststartPoints.get i = (if i = 16 then 65535 else 65536 - 256 * (16 - i.val) ^ 2)) ∧
  (∀ laws : List Points,
    lawOf laws 0 0 = .points linearPoints ∧ lawOf laws 0 1 = .points squarePoints ∧
    lawOf laws 0 2 = .points faststartPoints ∧ lawOf laws 0 3 = .switch ∧ lawOf laws 0 4 = .fluorescent ∧
    (∀ i, 5 ≤ i → lawOf laws 0 i = .points linearPoints) ∧
    (∀ i p, laws[i]? = some p → lawOf laws 1 i = .points p) ∧
    (∀ i, laws.length ≤ i → lawOf laws 1 i = .points linearPoints))

/-- R100, R101, R102: the output of a circuit lies between its preheat and top-set, a SWITCH circuit is at 0 or its top-set by
its raw level alone, FLUORESCENT strikes at 16384, a point law gives its interpolation under the limits, and an undefined law is
LINEAR under the same limits. Which law a page and index name stands in PointLawsInterpolate (log 9). -/
def Obligations.OutputsObeyTheirLimits : Prop :=
  ∀ (laws : List Points) (f : Profile) (r : Nat), f.Legal → r ≤ 65535 →
    (lawOf laws f.page f.index ≠ .switch →
      f.preheat ≤ profileOutput laws f r ∧ profileOutput laws f r ≤ f.topSet) ∧
    (lawOf laws f.page f.index = .switch → profileOutput laws f r = if r < 32768 then 0 else f.topSet) ∧
    (lawOf laws f.page f.index = .fluorescent →
      profileOutput laws f r = min (max (if r = 0 then 0 else 16384 + 3 * r / 4) f.preheat) f.topSet) ∧
    (undefinedLaw laws f = true → profileOutput laws f r = min (max r f.preheat) f.topSet) ∧
    (∀ p, lawOf laws f.page f.index = .points p →
      profileOutput laws f r = min (max (interpolate p r) f.preheat) f.topSet)

/-- R95, R98, R101, R123, R131, R139, R159, R173: every step keeps the working and the stored rig record legal and the
law-fault count equal to the number of profiles that name an undefined law. -/
def Obligations.EveryStepKeepsTheRigRecordLegal : Prop :=
  ∀ (s t : State), s.RigLegal → step s = .next t → t.RigLegal

/-! ## Park unit (chapter 7) -/

/-- R113 to R115, R117, R118: PARK, FLASH, NUDGE and UNPARK under every sender, field, role and list. -/
def Obligations.ParkRequestsFollowTheirRules : Prop :=
  ∀ (s : State) (l : Link) (tag : Byte),
    let shadow : Prop := ∃ d, deskOf l = some d ∧ s.lead ≠ some d
    let place (x : Park) (code : ResultCode) : State :=
      if ∃ y ∈ s.parks, y.circuit = x.circuit then
        State.answered { s with parks := s.parks.map fun y => if y.circuit = x.circuit then x else y } l code
      else if s.parks.length < 64 then State.answered { s with parks := s.parks ++ [x] } l code
      else s.answered l .parkFull
    (∀ c1 c0 v1 v0 : Byte, AtHead s l ⟨kindPark, tag, [c1, c0, v1, v0]⟩ →
      (numbered 768 (c1.toNat * 256 + c0.toNat) = none →
        exec (.park l tag [c1, c0, v1, v0]) s = .next (s.answered l .badField)) ∧
      (∀ c, numbered 768 (c1.toNat * 256 + c0.toNat) = some c →
        (shadow → exec (.park l tag [c1, c0, v1, v0]) s = .next (s.answered l .notLead)) ∧
        (¬ shadow → exec (.park l tag [c1, c0, v1, v0]) s =
          .next (place ⟨c, v1.toNat * 256 + v0.toNat, none, l⟩ .ok)))) ∧
    (∀ c1 c0 a1 a0 b1 b0 on off : Byte, AtHead s l ⟨kindFlash, tag, [c1, c0, a1, a0, b1, b0, on, off]⟩ →
      (numbered 768 (c1.toNat * 256 + c0.toNat) = none →
        exec (.flash l tag [c1, c0, a1, a0, b1, b0, on, off]) s = .next (s.answered l .badField)) ∧
      (∀ c, numbered 768 (c1.toNat * 256 + c0.toNat) = some c →
        (shadow → exec (.flash l tag [c1, c0, a1, a0, b1, b0, on, off]) s = .next (s.answered l .notLead)) ∧
        (¬ shadow → exec (.flash l tag [c1, c0, a1, a0, b1, b0, on, off]) s = .next (place
          ⟨c, a1.toNat * 256 + a0.toNat,
            some ⟨b1.toNat * 256 + b0.toNat, max 1 on.toNat, max 1 off.toNat, .a, max 1 on.toNat * 20⟩, l⟩
          (if on = 0 ∨ off = 0 then .clamped else .ok))))) ∧
    (∀ c1 c0 b : Byte, AtHead s l ⟨kindNudge, tag, [c1, c0, b]⟩ →
      (numbered 768 (c1.toNat * 256 + c0.toNat) = none →
        exec (.nudge l tag [c1, c0, b]) s = .next (s.answered l .badField)) ∧
      (∀ c, numbered 768 (c1.toNat * 256 + c0.toNat) = some c →
        (shadow → exec (.nudge l tag [c1, c0, b]) s = .next (s.answered l .notLead)) ∧
        (¬ shadow → (∀ x ∈ s.parks, x.circuit ≠ c) →
          exec (.nudge l tag [c1, c0, b]) s = .next (s.answered l .badField)) ∧
        (¬ shadow → s.ParksLegal → ∀ x ∈ s.parks, x.circuit = c →
          let sum : Int := (x.levelA : Int) + b.toInt * 256
          exec (.nudge l tag [c1, c0, b]) s = .next (State.answered
            { s with parks := s.parks.map fun y =>
              if y.circuit = c then { x with levelA := (max 0 (min 65535 sum)).toNat, owner := l } else y } l
            (if 0 ≤ sum ∧ sum ≤ 65535 then .ok else .clamped))))) ∧
    (∀ c1 c0 : Byte, AtHead s l ⟨kindUnpark, tag, [c1, c0]⟩ →
      let n := c1.toNat * 256 + c0.toNat
      (768 < n → exec (.unpark l tag [c1, c0]) s = .next (s.answered l .badField)) ∧
      (n ≤ 768 → shadow → exec (.unpark l tag [c1, c0]) s = .next (s.answered l .notLead)) ∧
      (n ≤ 768 → ¬ shadow → exec (.unpark l tag [c1, c0]) s = .next (State.answered
        { s with parks := s.parks.filter fun x => if n = 0 then x.owner ≠ l else x.circuit.val + 1 ≠ n } l .ok)))

/-- R111: every step keeps the park list legal: at most 64 entries, no circuit twice, every field in its range. -/
def Obligations.EveryStepKeepsTheParkListLegal : Prop :=
  ∀ (s t : State), s.ParksLegal → step s = .next t → t.ParksLegal

/-! ## Stage lines and looks (chapter 8) -/

/-- R125, R126, R127: an input change starts, stops or restarts the debounce timer; its expiry makes the timed level the
debounced state, and a selected change of assertion adds LINE_EDGE to links A, B and C.
A row whose occasion is absent changes nothing by the model's choice (log 12). -/
def Obligations.StageLinesDebounceTheirInputs : Prop :=
  ∀ (s : State) (n : Fin 4), s.power = .running →
    let x := s.line n
    let time := (s.rig.lines.get n).debounce
    (∀ v, x.input = v → exec (.lineInputChange n v) s = .next s) ∧
    (∀ v, x.input ≠ v → exec (.lineInputChange n v) s = .next (s.setLine n
      { x with
        input := v
        timer := match x.debounced with
          | none => some ⟨v, time⟩
          | some d => if x.timer = none ∧ d ≠ v then some ⟨v, time⟩ else none })) ∧
    (x.timer = none → exec (.debounceTimerExpiry n) s = .next s) ∧
    (∀ t, x.timer = some t →
      let active := (s.rig.lines.get n).active
      let was : Prop := x.debounced = some active
      let now : Prop := t.timing = active
      let edges := (s.rig.lines.get n).edges
      let u := s.setLine n ⟨x.input, some t.timing, none⟩
      exec (.debounceTimerExpiry n) s =
        .next (if (now ∧ ¬ was ∧ (edges = .assertion ∨ edges = .both)) ∨ (was ∧ ¬ now ∧ (edges = .release ∨ edges = .both))
          then u.notifyAll (.lineEdge n) else u))

/-- R130, R135: LINE_SETUP, LOOK_RAISE and LOOK_LOWER under every sender, field, role and save; a changed active level is an edge
under the new latch edges, and a changed debounce restarts a running timer. -/
def Obligations.LineSetupAndLookFlagsFollowTheirRules : Prop :=
  (∀ (s : State) (l : Link) (tag x a e act look db : Byte), AtHead s l ⟨kindLineSetup, tag, [x, a, e, act, look, db]⟩ →
    exec (.lineSetup l tag [x, a, e, act, look, db]) s =
      .next (match deskOf l, numbered 4 x.toNat, activeValue a.toNat, edgesValue e.toNat, actionValue act.toNat look.toNat with
        | none, _, _, _, _ => s.answered l .role
        | some d, some n, some active, some edges, some action =>
          if s.lead ≠ some d then s.answered l .notLead
          else if s.saving.map (·.cls) = some .rig then s.answered l .storeBusy
          else
            let time := max 10 (min 250 db.toNat)
            let old := s.rig.lines.get n
            let was : Prop := (s.line n).debounced = some old.active
            let now : Prop := (s.line n).debounced = some active
            let u : State := { s with rig := { s.rig with lines := s.rig.lines.set n ⟨active, edges, action, time⟩ } }
            let v := if old.debounce = time then u
              else u.setLine n { s.line n with timer := (s.line n).timer.map fun t => ⟨t.timing, time⟩ }
            State.answered
              (if (now ∧ ¬ was ∧ (edges = .assertion ∨ edges = .both)) ∨
                  (was ∧ ¬ now ∧ (edges = .release ∨ edges = .both)) then v.notifyAll (.lineEdge n) else v)
              l (if 10 ≤ db.toNat ∧ db.toNat ≤ 250 then .ok else .clamped)
        | _, _, _, _, _ => s.answered l .badField)) ∧
  (∀ (s : State) (l : Link) (tag x : Byte),
    let flag (b : Bool) : State := match deskOf l, numbered 4 x.toNat with
      | none, _ => s.answered l .role
      | some _, none => s.answered l .badField
      | some d, some k =>
        if s.lead ≠ some d then s.answered l .notLead
        else State.answered { s with deskRaised := s.deskRaised.set k b } l .ok
    (AtHead s l ⟨kindLookRaise, tag, [x]⟩ → exec (.lookRaise l tag [x]) s = .next (flag true)) ∧
    (AtHead s l ⟨kindLookLower, tag, [x]⟩ → exec (.lookLower l tag [x]) s = .next (flag false)))

/-- R133, R136: the look level of a circuit is the highest level among the raised looks of the highest priority that name it. -/
def Obligations.LookLevelIsTheHighestOfTheTopPriority : Prop :=
  ∀ (s : State) (c : Fin 768),
    let names (k : Fin 4) (v : Nat) : Prop :=
      (s.deskRaised.get k = true ∨ ∃ n, (s.line n).debounced = some (s.rig.lines.get n).active ∧
        (s.rig.lines.get n).action = .look k) ∧ (s.rig.looks.get k).levelFor c = some v
    (s.lookLevel c = none ↔ ∀ k v, ¬ names k v) ∧
    (∀ v, s.lookLevel c = some v ↔ ∃ k, names k v ∧ ∀ k' v', names k' v' →
      (s.rig.looks.get k').priority < (s.rig.looks.get k).priority ∨
      ((s.rig.looks.get k').priority = (s.rig.looks.get k).priority ∧ v' ≤ v))

/-! ## Output merge (chapter 9) -/

/-- R142, R143, R144: the show output of a circuit is the highest of its feeders' contributions, each from the highest of the
four playback levels under the grand master; blackout makes it 0. -/
def Obligations.ShowOutputIsTheHighestContribution : Prop :=
  ∀ (s : State) (c : Fin 768),
    let playbackLevel (p : Fin 4) (ch : Fin 512) : Nat := (s.channel p ch).level * (s.playback p).master / 65535
    let contribution (f : Feeder) (level : Nat) : Nat := level * s.grand / 65535 * f.percent / 100
    (s.blackout = true → s.showOutput c = 0) ∧
    (s.blackout = false →
      (∀ f ∈ s.liveMap.get c, ∀ p, contribution f (playbackLevel p f.channel) ≤ s.showOutput c) ∧
      (s.showOutput c = 0 ∨
        ∃ f ∈ s.liveMap.get c, ∃ p, s.showOutput c = contribution f (playbackLevel p f.channel)))

/-- R120, R136, R143, R145, R146: a circuit that a raised look names has the output its profile gives the look level, a park
beside it set aside; a parked circuit that none names, the output of its park's level (level A, or the level of its current
phase); any other, that of its show output. The output of a held circuit does not depend on the channel levels, the playback
records, the grand master, blackout, the banks, the live map or the run list. -/
def Obligations.HeldCircuitsIgnoreTheShow : Prop :=
  (∀ (s t : State) (c : Fin 768),
    s.rig = t.rig → s.parks = t.parks → s.stage = t.stage → s.deskRaised = t.deskRaised →
      ((∃ x ∈ s.parks, x.circuit = c) ∨ s.lookLevel c ≠ none) → s.output c = t.output c) ∧
  (∀ (s : State) (c : Fin 768), s.ParksLegal →
    let shaped := profileOutput s.rig.laws (s.rig.profiles.get c)
    (∀ v, s.lookLevel c = some v → s.output c = shaped v) ∧
    (∀ x ∈ s.parks, x.circuit = c → s.lookLevel c = none → s.output c = shaped (match x.flash with
      | some ⟨levelB, _, _, .b, _⟩ => levelB
      | _ => x.levelA)) ∧
    (s.lookLevel c = none → (∀ x ∈ s.parks, x.circuit ≠ c) → s.output c = shaped (s.showOutput c)))

/-- R90, R141, R146, R147, R148, R187: a frame start of a running line restarts its timer and, outside a rebuild, sends and keeps
the frame of its 256 outputs in its resolution with their lit count; in a rebuild it repeats its last frame byte for byte.
No other line and nothing else changes. That a line holds the whole frame as sent from the frame start on, and no bytes while it
is idle, is the model's choice (log 6).
A row whose occasion is absent changes nothing by the model's choice (log 12). -/
def Obligations.FrameStartSendsOrRepeats : Prop :=
  ∀ (s : State) (k : Fin 3), s.power = .running →
    let period := (s.rig.racks.get k).period
    let bytes (r : Resolution) (v : Nat) : List Byte := match r with
      | .bits8 => [byteOf (v / 256)]
      | .bits16 => [byteOf (v / 256), byteOf v]
    let sent (f : Frame) : List Byte :=
      (match f.resolution with | .bits8 => 0x08 | .bits16 => 0x10) :: f.levels.cells.flatMap (bytes f.resolution)
    ((s.rack k).timer = none → exec (.frameStart k) s = .next s) ∧
    ((s.rack k).timer ≠ none → s.rebuild = none →
      let f : Frame := ⟨(s.rig.racks.get k).resolution,
        Table.tabulate fun i => s.output ⟨256 * k.val + i.val, by omega⟩⟩
      exec (.frameStart k) s = .next (s.setRack k
        ⟨some period, some f, (f.levels.cells.filter fun v => 32768 ≤ v).length, sent f⟩)) ∧
    (∀ f, (s.rack k).timer ≠ none → s.rebuild ≠ none → (s.rack k).last = some f →
      exec (.frameStart k) s = .next (s.setRack k { s.rack k with timer := some period, sent := sent f })) ∧
    ((s.rack k).timer ≠ none → s.rebuild ≠ none → (s.rack k).last = none →
      exec (.frameStart k) s = .next (s.setRack k { s.rack k with timer := some period, sent := [] }))

/-- R149: GRAND under every sender, setting and role. No line, rebuild or save refuses it. -/
def Obligations.GrandFollowsItsRule : Prop :=
  ∀ (s : State) (l : Link) (tag hi lo b : Byte), AtHead s l ⟨kindGrand, tag, [hi, lo, b]⟩ →
    exec (.grand l tag [hi, lo, b]) s = .next (match deskOf l with
      | none => s.answered l .role
      | some d =>
        if b ≠ 0 ∧ b ≠ 1 then s.answered l .badField
        else if s.lead ≠ some d then s.answered l .notLead
        else State.answered { s with grand := hi.toNat * 256 + lo.toNat, blackout := decide (b = 1) } l .ok)

/-! ## Store, start-up and restart (chapter 11) -/

/-- R174 to R177: SAVE under every sender, field, role and save state, its item INVALID from the taking; the end of the write makes
the item VALID with the working copy, a failed write leaves it INVALID, and the SAVE's link is answered.
No step changes the working copy of the class being saved while its save is in flight, so that the item's content, taken from
the working copy at SAVE_END (log 19), is the one the save began with.
A row whose occasion is absent changes nothing by the model's choice (log 12).
What an INVALID item's content reads is the model's choice (log 16). -/
def Obligations.SaveAndItsEndFollowTheirRules : Prop :=
  (∀ (s : State) (l : Link) (tag x y : Byte), AtHead s l ⟨kindSave, tag, [x, y]⟩ →
    let invalid (cls : SaveClass) : State := match cls with
      | .bank n => { s with storedBanks := s.storedBanks.set n ⟨false, (s.storedBanks.get n).content⟩ }
      | .rig => { s with storedRig := ⟨false, s.storedRig.content⟩ }
    let start (d : Desk) (cls : SaveClass) : State :=
      if s.lead ≠ some d then s.answered l .notLead
      else if s.saving.isSome then s.answered l .storeBusy
      else State.setPort { invalid cls with saving := some ⟨cls, d⟩ } l { s.port l with head := .timed }
    exec (.save l tag [x, y]) s = .next (match deskOf l with
      | none => s.answered l .role
      | some d =>
        if x = 0 then (match numbered 4 y.toNat with
          | none => s.answered l .badField
          | some n => start d (.bank n))
        else if x = 1 then start d .rig
        else s.answered l .badField)) ∧
  (∀ (s : State), s.power = .running →
    (s.saving = none → exec .saveEnd s = .next s ∧ exec .saveWriteFailure s = .next s) ∧
    (∀ n d, s.saving = some ⟨.bank n, d⟩ → (s.port (linkOf d)).head = .timed →
      exec .saveEnd s = .next (State.answered
        { s with saving := none, storedBanks := s.storedBanks.set n ⟨true, s.bank n⟩ } (linkOf d) .ok) ∧
      exec .saveWriteFailure s = .next (State.answered
        { s with saving := none, storedBanks := s.storedBanks.set n ⟨false, (s.storedBanks.get n).content⟩ }
        (linkOf d) .storeFault)) ∧
    (∀ d, s.saving = some ⟨.rig, d⟩ → (s.port (linkOf d)).head = .timed →
      exec .saveEnd s = .next (State.answered { s with saving := none, storedRig := ⟨true, s.rig⟩ } (linkOf d) .ok) ∧
      exec .saveWriteFailure s = .next (State.answered
        { s with saving := none, storedRig := ⟨false, s.storedRig.content⟩ } (linkOf d) .storeFault))) ∧
  (∀ (s t : State), step s = .next t → t.saving = s.saving →
    (∀ n, s.saving.map (·.cls) = some (.bank n) → t.bank n = s.bank n) ∧
    (s.saving.map (·.cls) = some .rig → t.rig = s.rig))

/-- R178 to R181: RESET_ASSERT stops the part and keeps the stored items; COLD_START, which depends on nothing but the stored items,
the line leads and the waiting commands, loads them and starts the rebuild of the start bank; SUPPLY_DIP stops the part with
its state held; a part that does not run takes no event but these, and of the line leads only their own levels change; within a
dip the RESET line changes only its own level, and of that only the level at the recovery counts: DIP_RESTART resumes the part
with the queues emptied, the LIVE monitors restarted, a save abandoned with SAVE_LOST and RESTARTED(DIP) added, or, with the line
low, holds it in reset. The values of the lost working state while held are the model's choice (log 4).
A COLD_START in any other state is a cold start, in a dip with the RESET line low it is the line's release, and DIP_RESTART is the
recovery; the leads' levels come through all of them: the model's choices (logs 22, 23, 28). That a row whose occasion is absent
changes nothing, DIP_RESTART of a part not dipped among them, is log 12's choice, the content an abandoned item keeps is log
16's, and the emptied sent bytes are log 6's. -/
def Obligations.ResetAndRestartFollowTheirRules : Prop :=
  ∀ (s : State),
    let inReset (t : State) : Prop :=
      t.power = .held ∧ t.storedBanks = s.storedBanks ∧ t.storedRig = s.storedRig ∧
        (∀ n, (t.line n).input = (s.line n).input) ∧ (∀ k, (t.rack k).sent = [] ∧ (t.rack k).timer = none) ∧
        t.saving = none ∧ t.rebuild = none ∧ t.pending = s.pending
    ((∀ r, s.power ≠ .dipped r) → ∃ t, exec .resetAssert s = .next t ∧ inReset t) ∧
    (∀ r, s.power = .dipped r → exec .resetAssert s = .next { s with power := .dipped .low }) ∧
    (s.power = .dipped .low → exec .coldStart s = .next { s with power := .dipped .high }) ∧
    (s.power ≠ .dipped .low → ∃ t, exec .coldStart s = .next t ∧
      t.power = .running ∧ t.lead = none ∧ t.runList = [] ∧ t.parks = [] ∧ t.saving = none ∧
      t.grand = 65535 ∧ t.blackout = false ∧
      (∀ i, t.slot i = .empty) ∧ (∀ p c, t.channel p c = ⟨0, none⟩) ∧
      (∀ p, t.playback p = ⟨0, false, 100, 65535, none, none, []⟩) ∧
      t.rig = (if s.storedRig.valid then s.storedRig.content else RigRecord.default) ∧
      (∀ n, t.bank n = if (s.storedBanks.get n).valid then (s.storedBanks.get n).content else []) ∧
      t.storedBanks = s.storedBanks ∧ t.storedRig = s.storedRig ∧
      t.liveBank = t.rig.startBank ∧ t.rebuild = some ⟨t.rig.startBank, none, true⟩ ∧
      t.lawFaults = t.rig.profiles.count (undefinedLaw t.rig.laws) ∧
      (∀ n, t.line n = ⟨(s.line n).input, none, some ⟨(s.line n).input, (t.rig.lines.get n).debounce⟩⟩) ∧
      (∀ k, t.deskRaised.get k = false) ∧ (∀ k, t.rack k = ⟨none, none, 0, []⟩) ∧
      (∀ l, t.port l = ⟨.silent, none, .hunting, [], .untaken,
        { rigLost := !s.storedRig.valid, lawFault := decide (t.lawFaults ≠ 0)
          bankLost := decide (∃ n, (s.storedBanks.get n).valid = false) }, none⟩) ∧
      t.pending = s.pending) ∧
    (∀ u : State, u.storedBanks = s.storedBanks → u.storedRig = s.storedRig → (∀ n, (u.line n).input = (s.line n).input) →
      u.pending = s.pending → s.power ≠ .dipped .low → u.power ≠ .dipped .low → exec .coldStart u = exec .coldStart s) ∧
    (s.power = .running → exec .supplyDip s =
      .next { s with power := .dipped .high, racks := s.racks.map fun x => { x with sent := [] } }) ∧
    (s.power ≠ .running →
      (∀ c, c ≠ .resetAssert → c ≠ .coldStart → c ≠ .dipRestart → (∀ n v, c ≠ .lineInputChange n v) → exec c s = .next s) ∧
      (∀ n v, exec (.lineInputChange n v) s = .next (s.setLine n { s.line n with input := v }))) ∧
    ((∀ r, s.power ≠ .dipped r) → exec .dipRestart s = .next s) ∧
    (s.power = .dipped .low → ∃ t, exec .dipRestart s = .next t ∧ inReset t) ∧
    (s.power = .dipped .high → ∃ t, exec .dipRestart s = .next t ∧ t.power = .running ∧ t.saving = none ∧
      t.rebuild = s.rebuild.map (fun r => ⟨r.bank, none, r.cold⟩) ∧
      (∀ l, t.port l = { s.port l with
        receiver := .hunting
        queue := []
        head := .untaken
        monitor := if (s.port l).state = .live then some (s.limit l * 100) else (s.port l).monitor
        notices := { (s.port l).notices with
          saveLost := (s.port l).notices.saveLost || s.saving.isSome
          restarted := if (s.port l).notices.restarted = some .cold then some .cold else some .dip } }) ∧
      (∀ n, t.line n = { s.line n with
        timer := if (s.line n).debounced = some (s.line n).input then none
          else some ⟨(s.line n).input, (s.rig.lines.get n).debounce⟩ }) ∧
      (∀ k, t.rack k = { s.rack k with
        timer := if (s.rack k).last.isSome then some (s.rig.racks.get k).period else none }) ∧
      (∀ n, t.storedBanks.get n = ⟨(s.storedBanks.get n).valid && s.saving.map (·.cls) != some (.bank n),
        (s.storedBanks.get n).content⟩) ∧
      t.storedRig = ⟨s.storedRig.valid && s.saving.map (·.cls) != some .rig, s.storedRig.content⟩ ∧
      t = { s with power := t.power, saving := t.saving, rebuild := t.rebuild, ports := t.ports, stage := t.stage,
                   racks := t.racks, storedBanks := t.storedBanks, storedRig := t.storedRig })

/-- The part right after reset meets every invariant above; the values it has where the manual leaves the store and the leads
open are the model's (logs 2 and 14). -/
def Obligations.ResetMeetsEveryInvariant : Prop :=
  State.reset.LinksLegal ∧ State.reset.CuesLegal ∧ State.reset.RunListLegal ∧ State.reset.EngineLegal ∧
    State.reset.RestoreLegal ∧ State.reset.LevelsLegal ∧ State.reset.PatchLegal ∧ State.reset.RigLegal ∧
    State.reset.ParksLegal
end

