-- ==== Sys2Proof/Laws/State.lean ====
section
/-! SUPPORT. One lemma per field per update of the state, each true by `rfl`: what an update writes, and that it leaves every other
field as it was. With them no later proof unfolds a record update. -/

namespace Sys2Proof.Machine

variable (s : State)

/-! ### `State.setPort` -/

@[simp] theorem State.setPort_power (l : Link) (p : Port) : (s.setPort l p).power = s.power := rfl
@[simp] theorem State.setPort_ports (l : Link) (p : Port) : (s.setPort l p).ports = s.ports.set l p := rfl
@[simp] theorem State.setPort_lead (l : Link) (p : Port) : (s.setPort l p).lead = s.lead := rfl
@[simp] theorem State.setPort_slots (l : Link) (p : Port) : (s.setPort l p).slots = s.slots := rfl
@[simp] theorem State.setPort_playbacks (l : Link) (p : Port) : (s.setPort l p).playbacks = s.playbacks := rfl
@[simp] theorem State.setPort_channels (l : Link) (p : Port) : (s.setPort l p).channels = s.channels := rfl
@[simp] theorem State.setPort_runList (l : Link) (p : Port) : (s.setPort l p).runList = s.runList := rfl
@[simp] theorem State.setPort_births (l : Link) (p : Port) : (s.setPort l p).births = s.births := rfl
@[simp] theorem State.setPort_banks (l : Link) (p : Port) : (s.setPort l p).banks = s.banks := rfl
@[simp] theorem State.setPort_liveBank (l : Link) (p : Port) : (s.setPort l p).liveBank = s.liveBank := rfl
@[simp] theorem State.setPort_liveMap (l : Link) (p : Port) : (s.setPort l p).liveMap = s.liveMap := rfl
@[simp] theorem State.setPort_rebuild (l : Link) (p : Port) : (s.setPort l p).rebuild = s.rebuild := rfl
@[simp] theorem State.setPort_rig (l : Link) (p : Port) : (s.setPort l p).rig = s.rig := rfl
@[simp] theorem State.setPort_lawFaults (l : Link) (p : Port) : (s.setPort l p).lawFaults = s.lawFaults := rfl
@[simp] theorem State.setPort_parks (l : Link) (p : Port) : (s.setPort l p).parks = s.parks := rfl
@[simp] theorem State.setPort_stage (l : Link) (p : Port) : (s.setPort l p).stage = s.stage := rfl
@[simp] theorem State.setPort_deskRaised (l : Link) (p : Port) : (s.setPort l p).deskRaised = s.deskRaised := rfl
@[simp] theorem State.setPort_grand (l : Link) (p : Port) : (s.setPort l p).grand = s.grand := rfl
@[simp] theorem State.setPort_blackout (l : Link) (p : Port) : (s.setPort l p).blackout = s.blackout := rfl
@[simp] theorem State.setPort_racks (l : Link) (p : Port) : (s.setPort l p).racks = s.racks := rfl
@[simp] theorem State.setPort_storedBanks (l : Link) (p : Port) : (s.setPort l p).storedBanks = s.storedBanks := rfl
@[simp] theorem State.setPort_storedRig (l : Link) (p : Port) : (s.setPort l p).storedRig = s.storedRig := rfl
@[simp] theorem State.setPort_saving (l : Link) (p : Port) : (s.setPort l p).saving = s.saving := rfl
@[simp] theorem State.setPort_pending (l : Link) (p : Port) : (s.setPort l p).pending = s.pending := rfl

/-! ### `State.modPort` -/

@[simp] theorem State.modPort_power (l : Link) (f : Port → Port) : (s.modPort l f).power = s.power := rfl
@[simp] theorem State.modPort_ports (l : Link) (f : Port → Port) : (s.modPort l f).ports = s.ports.set l (f (s.ports.get l)) := rfl
@[simp] theorem State.modPort_lead (l : Link) (f : Port → Port) : (s.modPort l f).lead = s.lead := rfl
@[simp] theorem State.modPort_slots (l : Link) (f : Port → Port) : (s.modPort l f).slots = s.slots := rfl
@[simp] theorem State.modPort_playbacks (l : Link) (f : Port → Port) : (s.modPort l f).playbacks = s.playbacks := rfl
@[simp] theorem State.modPort_channels (l : Link) (f : Port → Port) : (s.modPort l f).channels = s.channels := rfl
@[simp] theorem State.modPort_runList (l : Link) (f : Port → Port) : (s.modPort l f).runList = s.runList := rfl
@[simp] theorem State.modPort_births (l : Link) (f : Port → Port) : (s.modPort l f).births = s.births := rfl
@[simp] theorem State.modPort_banks (l : Link) (f : Port → Port) : (s.modPort l f).banks = s.banks := rfl
@[simp] theorem State.modPort_liveBank (l : Link) (f : Port → Port) : (s.modPort l f).liveBank = s.liveBank := rfl
@[simp] theorem State.modPort_liveMap (l : Link) (f : Port → Port) : (s.modPort l f).liveMap = s.liveMap := rfl
@[simp] theorem State.modPort_rebuild (l : Link) (f : Port → Port) : (s.modPort l f).rebuild = s.rebuild := rfl
@[simp] theorem State.modPort_rig (l : Link) (f : Port → Port) : (s.modPort l f).rig = s.rig := rfl
@[simp] theorem State.modPort_lawFaults (l : Link) (f : Port → Port) : (s.modPort l f).lawFaults = s.lawFaults := rfl
@[simp] theorem State.modPort_parks (l : Link) (f : Port → Port) : (s.modPort l f).parks = s.parks := rfl
@[simp] theorem State.modPort_stage (l : Link) (f : Port → Port) : (s.modPort l f).stage = s.stage := rfl
@[simp] theorem State.modPort_deskRaised (l : Link) (f : Port → Port) : (s.modPort l f).deskRaised = s.deskRaised := rfl
@[simp] theorem State.modPort_grand (l : Link) (f : Port → Port) : (s.modPort l f).grand = s.grand := rfl
@[simp] theorem State.modPort_blackout (l : Link) (f : Port → Port) : (s.modPort l f).blackout = s.blackout := rfl
@[simp] theorem State.modPort_racks (l : Link) (f : Port → Port) : (s.modPort l f).racks = s.racks := rfl
@[simp] theorem State.modPort_storedBanks (l : Link) (f : Port → Port) : (s.modPort l f).storedBanks = s.storedBanks := rfl
@[simp] theorem State.modPort_storedRig (l : Link) (f : Port → Port) : (s.modPort l f).storedRig = s.storedRig := rfl
@[simp] theorem State.modPort_saving (l : Link) (f : Port → Port) : (s.modPort l f).saving = s.saving := rfl
@[simp] theorem State.modPort_pending (l : Link) (f : Port → Port) : (s.modPort l f).pending = s.pending := rfl

/-! ### `State.setSlot` -/

@[simp] theorem State.setSlot_power (t : Fin 32) (x : Slot) : (s.setSlot t x).power = s.power := rfl
@[simp] theorem State.setSlot_ports (t : Fin 32) (x : Slot) : (s.setSlot t x).ports = s.ports := rfl
@[simp] theorem State.setSlot_lead (t : Fin 32) (x : Slot) : (s.setSlot t x).lead = s.lead := rfl
@[simp] theorem State.setSlot_slots (t : Fin 32) (x : Slot) : (s.setSlot t x).slots = s.slots.set t x := rfl
@[simp] theorem State.setSlot_playbacks (t : Fin 32) (x : Slot) : (s.setSlot t x).playbacks = s.playbacks := rfl
@[simp] theorem State.setSlot_channels (t : Fin 32) (x : Slot) : (s.setSlot t x).channels = s.channels := rfl
@[simp] theorem State.setSlot_runList (t : Fin 32) (x : Slot) : (s.setSlot t x).runList = s.runList := rfl
@[simp] theorem State.setSlot_births (t : Fin 32) (x : Slot) : (s.setSlot t x).births = s.births := rfl
@[simp] theorem State.setSlot_banks (t : Fin 32) (x : Slot) : (s.setSlot t x).banks = s.banks := rfl
@[simp] theorem State.setSlot_liveBank (t : Fin 32) (x : Slot) : (s.setSlot t x).liveBank = s.liveBank := rfl
@[simp] theorem State.setSlot_liveMap (t : Fin 32) (x : Slot) : (s.setSlot t x).liveMap = s.liveMap := rfl
@[simp] theorem State.setSlot_rebuild (t : Fin 32) (x : Slot) : (s.setSlot t x).rebuild = s.rebuild := rfl
@[simp] theorem State.setSlot_rig (t : Fin 32) (x : Slot) : (s.setSlot t x).rig = s.rig := rfl
@[simp] theorem State.setSlot_lawFaults (t : Fin 32) (x : Slot) : (s.setSlot t x).lawFaults = s.lawFaults := rfl
@[simp] theorem State.setSlot_parks (t : Fin 32) (x : Slot) : (s.setSlot t x).parks = s.parks := rfl
@[simp] theorem State.setSlot_stage (t : Fin 32) (x : Slot) : (s.setSlot t x).stage = s.stage := rfl
@[simp] theorem State.setSlot_deskRaised (t : Fin 32) (x : Slot) : (s.setSlot t x).deskRaised = s.deskRaised := rfl
@[simp] theorem State.setSlot_grand (t : Fin 32) (x : Slot) : (s.setSlot t x).grand = s.grand := rfl
@[simp] theorem State.setSlot_blackout (t : Fin 32) (x : Slot) : (s.setSlot t x).blackout = s.blackout := rfl
@[simp] theorem State.setSlot_racks (t : Fin 32) (x : Slot) : (s.setSlot t x).racks = s.racks := rfl
@[simp] theorem State.setSlot_storedBanks (t : Fin 32) (x : Slot) : (s.setSlot t x).storedBanks = s.storedBanks := rfl
@[simp] theorem State.setSlot_storedRig (t : Fin 32) (x : Slot) : (s.setSlot t x).storedRig = s.storedRig := rfl
@[simp] theorem State.setSlot_saving (t : Fin 32) (x : Slot) : (s.setSlot t x).saving = s.saving := rfl
@[simp] theorem State.setSlot_pending (t : Fin 32) (x : Slot) : (s.setSlot t x).pending = s.pending := rfl

/-! ### `State.setPlayback` -/

@[simp] theorem State.setPlayback_power (p : Fin 4) (x : Playback) : (s.setPlayback p x).power = s.power := rfl
@[simp] theorem State.setPlayback_ports (p : Fin 4) (x : Playback) : (s.setPlayback p x).ports = s.ports := rfl
@[simp] theorem State.setPlayback_lead (p : Fin 4) (x : Playback) : (s.setPlayback p x).lead = s.lead := rfl
@[simp] theorem State.setPlayback_slots (p : Fin 4) (x : Playback) : (s.setPlayback p x).slots = s.slots := rfl
@[simp] theorem State.setPlayback_playbacks (p : Fin 4) (x : Playback) : (s.setPlayback p x).playbacks = s.playbacks.set p x := rfl
@[simp] theorem State.setPlayback_channels (p : Fin 4) (x : Playback) : (s.setPlayback p x).channels = s.channels := rfl
@[simp] theorem State.setPlayback_runList (p : Fin 4) (x : Playback) : (s.setPlayback p x).runList = s.runList := rfl
@[simp] theorem State.setPlayback_births (p : Fin 4) (x : Playback) : (s.setPlayback p x).births = s.births := rfl
@[simp] theorem State.setPlayback_banks (p : Fin 4) (x : Playback) : (s.setPlayback p x).banks = s.banks := rfl
@[simp] theorem State.setPlayback_liveBank (p : Fin 4) (x : Playback) : (s.setPlayback p x).liveBank = s.liveBank := rfl
@[simp] theorem State.setPlayback_liveMap (p : Fin 4) (x : Playback) : (s.setPlayback p x).liveMap = s.liveMap := rfl
@[simp] theorem State.setPlayback_rebuild (p : Fin 4) (x : Playback) : (s.setPlayback p x).rebuild = s.rebuild := rfl
@[simp] theorem State.setPlayback_rig (p : Fin 4) (x : Playback) : (s.setPlayback p x).rig = s.rig := rfl
@[simp] theorem State.setPlayback_lawFaults (p : Fin 4) (x : Playback) : (s.setPlayback p x).lawFaults = s.lawFaults := rfl
@[simp] theorem State.setPlayback_parks (p : Fin 4) (x : Playback) : (s.setPlayback p x).parks = s.parks := rfl
@[simp] theorem State.setPlayback_stage (p : Fin 4) (x : Playback) : (s.setPlayback p x).stage = s.stage := rfl
@[simp] theorem State.setPlayback_deskRaised (p : Fin 4) (x : Playback) : (s.setPlayback p x).deskRaised = s.deskRaised := rfl
@[simp] theorem State.setPlayback_grand (p : Fin 4) (x : Playback) : (s.setPlayback p x).grand = s.grand := rfl
@[simp] theorem State.setPlayback_blackout (p : Fin 4) (x : Playback) : (s.setPlayback p x).blackout = s.blackout := rfl
@[simp] theorem State.setPlayback_racks (p : Fin 4) (x : Playback) : (s.setPlayback p x).racks = s.racks := rfl
@[simp] theorem State.setPlayback_storedBanks (p : Fin 4) (x : Playback) : (s.setPlayback p x).storedBanks = s.storedBanks := rfl
@[simp] theorem State.setPlayback_storedRig (p : Fin 4) (x : Playback) : (s.setPlayback p x).storedRig = s.storedRig := rfl
@[simp] theorem State.setPlayback_saving (p : Fin 4) (x : Playback) : (s.setPlayback p x).saving = s.saving := rfl
@[simp] theorem State.setPlayback_pending (p : Fin 4) (x : Playback) : (s.setPlayback p x).pending = s.pending := rfl

/-! ### `State.modPlayback` -/

@[simp] theorem State.modPlayback_power (p : Fin 4) (f : Playback → Playback) : (s.modPlayback p f).power = s.power := rfl
@[simp] theorem State.modPlayback_ports (p : Fin 4) (f : Playback → Playback) : (s.modPlayback p f).ports = s.ports := rfl
@[simp] theorem State.modPlayback_lead (p : Fin 4) (f : Playback → Playback) : (s.modPlayback p f).lead = s.lead := rfl
@[simp] theorem State.modPlayback_slots (p : Fin 4) (f : Playback → Playback) : (s.modPlayback p f).slots = s.slots := rfl
@[simp] theorem State.modPlayback_playbacks (p : Fin 4) (f : Playback → Playback) : (s.modPlayback p f).playbacks = s.playbacks.set p (f (s.playbacks.get p)) := rfl
@[simp] theorem State.modPlayback_channels (p : Fin 4) (f : Playback → Playback) : (s.modPlayback p f).channels = s.channels := rfl
@[simp] theorem State.modPlayback_runList (p : Fin 4) (f : Playback → Playback) : (s.modPlayback p f).runList = s.runList := rfl
@[simp] theorem State.modPlayback_births (p : Fin 4) (f : Playback → Playback) : (s.modPlayback p f).births = s.births := rfl
@[simp] theorem State.modPlayback_banks (p : Fin 4) (f : Playback → Playback) : (s.modPlayback p f).banks = s.banks := rfl
@[simp] theorem State.modPlayback_liveBank (p : Fin 4) (f : Playback → Playback) : (s.modPlayback p f).liveBank = s.liveBank := rfl
@[simp] theorem State.modPlayback_liveMap (p : Fin 4) (f : Playback → Playback) : (s.modPlayback p f).liveMap = s.liveMap := rfl
@[simp] theorem State.modPlayback_rebuild (p : Fin 4) (f : Playback → Playback) : (s.modPlayback p f).rebuild = s.rebuild := rfl
@[simp] theorem State.modPlayback_rig (p : Fin 4) (f : Playback → Playback) : (s.modPlayback p f).rig = s.rig := rfl
@[simp] theorem State.modPlayback_lawFaults (p : Fin 4) (f : Playback → Playback) : (s.modPlayback p f).lawFaults = s.lawFaults := rfl
@[simp] theorem State.modPlayback_parks (p : Fin 4) (f : Playback → Playback) : (s.modPlayback p f).parks = s.parks := rfl
@[simp] theorem State.modPlayback_stage (p : Fin 4) (f : Playback → Playback) : (s.modPlayback p f).stage = s.stage := rfl
@[simp] theorem State.modPlayback_deskRaised (p : Fin 4) (f : Playback → Playback) : (s.modPlayback p f).deskRaised = s.deskRaised := rfl
@[simp] theorem State.modPlayback_grand (p : Fin 4) (f : Playback → Playback) : (s.modPlayback p f).grand = s.grand := rfl
@[simp] theorem State.modPlayback_blackout (p : Fin 4) (f : Playback → Playback) : (s.modPlayback p f).blackout = s.blackout := rfl
@[simp] theorem State.modPlayback_racks (p : Fin 4) (f : Playback → Playback) : (s.modPlayback p f).racks = s.racks := rfl
@[simp] theorem State.modPlayback_storedBanks (p : Fin 4) (f : Playback → Playback) : (s.modPlayback p f).storedBanks = s.storedBanks := rfl
@[simp] theorem State.modPlayback_storedRig (p : Fin 4) (f : Playback → Playback) : (s.modPlayback p f).storedRig = s.storedRig := rfl
@[simp] theorem State.modPlayback_saving (p : Fin 4) (f : Playback → Playback) : (s.modPlayback p f).saving = s.saving := rfl
@[simp] theorem State.modPlayback_pending (p : Fin 4) (f : Playback → Playback) : (s.modPlayback p f).pending = s.pending := rfl

/-! ### `State.setChannel` -/

@[simp] theorem State.setChannel_power (p : Fin 4) (c : Fin 512) (r : ChannelRecord) : (s.setChannel p c r).power = s.power := rfl
@[simp] theorem State.setChannel_ports (p : Fin 4) (c : Fin 512) (r : ChannelRecord) : (s.setChannel p c r).ports = s.ports := rfl
@[simp] theorem State.setChannel_lead (p : Fin 4) (c : Fin 512) (r : ChannelRecord) : (s.setChannel p c r).lead = s.lead := rfl
@[simp] theorem State.setChannel_slots (p : Fin 4) (c : Fin 512) (r : ChannelRecord) : (s.setChannel p c r).slots = s.slots := rfl
@[simp] theorem State.setChannel_playbacks (p : Fin 4) (c : Fin 512) (r : ChannelRecord) : (s.setChannel p c r).playbacks = s.playbacks := rfl
@[simp] theorem State.setChannel_channels (p : Fin 4) (c : Fin 512) (r : ChannelRecord) : (s.setChannel p c r).channels = s.channels.set p ((s.channels.get p).set c r) := rfl
@[simp] theorem State.setChannel_runList (p : Fin 4) (c : Fin 512) (r : ChannelRecord) : (s.setChannel p c r).runList = s.runList := rfl
@[simp] theorem State.setChannel_births (p : Fin 4) (c : Fin 512) (r : ChannelRecord) : (s.setChannel p c r).births = s.births := rfl
@[simp] theorem State.setChannel_banks (p : Fin 4) (c : Fin 512) (r : ChannelRecord) : (s.setChannel p c r).banks = s.banks := rfl
@[simp] theorem State.setChannel_liveBank (p : Fin 4) (c : Fin 512) (r : ChannelRecord) : (s.setChannel p c r).liveBank = s.liveBank := rfl
@[simp] theorem State.setChannel_liveMap (p : Fin 4) (c : Fin 512) (r : ChannelRecord) : (s.setChannel p c r).liveMap = s.liveMap := rfl
@[simp] theorem State.setChannel_rebuild (p : Fin 4) (c : Fin 512) (r : ChannelRecord) : (s.setChannel p c r).rebuild = s.rebuild := rfl
@[simp] theorem State.setChannel_rig (p : Fin 4) (c : Fin 512) (r : ChannelRecord) : (s.setChannel p c r).rig = s.rig := rfl
@[simp] theorem State.setChannel_lawFaults (p : Fin 4) (c : Fin 512) (r : ChannelRecord) : (s.setChannel p c r).lawFaults = s.lawFaults := rfl
@[simp] theorem State.setChannel_parks (p : Fin 4) (c : Fin 512) (r : ChannelRecord) : (s.setChannel p c r).parks = s.parks := rfl
@[simp] theorem State.setChannel_stage (p : Fin 4) (c : Fin 512) (r : ChannelRecord) : (s.setChannel p c r).stage = s.stage := rfl
@[simp] theorem State.setChannel_deskRaised (p : Fin 4) (c : Fin 512) (r : ChannelRecord) : (s.setChannel p c r).deskRaised = s.deskRaised := rfl
@[simp] theorem State.setChannel_grand (p : Fin 4) (c : Fin 512) (r : ChannelRecord) : (s.setChannel p c r).grand = s.grand := rfl
@[simp] theorem State.setChannel_blackout (p : Fin 4) (c : Fin 512) (r : ChannelRecord) : (s.setChannel p c r).blackout = s.blackout := rfl
@[simp] theorem State.setChannel_racks (p : Fin 4) (c : Fin 512) (r : ChannelRecord) : (s.setChannel p c r).racks = s.racks := rfl
@[simp] theorem State.setChannel_storedBanks (p : Fin 4) (c : Fin 512) (r : ChannelRecord) : (s.setChannel p c r).storedBanks = s.storedBanks := rfl
@[simp] theorem State.setChannel_storedRig (p : Fin 4) (c : Fin 512) (r : ChannelRecord) : (s.setChannel p c r).storedRig = s.storedRig := rfl
@[simp] theorem State.setChannel_saving (p : Fin 4) (c : Fin 512) (r : ChannelRecord) : (s.setChannel p c r).saving = s.saving := rfl
@[simp] theorem State.setChannel_pending (p : Fin 4) (c : Fin 512) (r : ChannelRecord) : (s.setChannel p c r).pending = s.pending := rfl

/-! ### `State.setRunList` -/

@[simp] theorem State.setRunList_power (l : List RunEntry) : (s.setRunList l).power = s.power := rfl
@[simp] theorem State.setRunList_ports (l : List RunEntry) : (s.setRunList l).ports = s.ports := rfl
@[simp] theorem State.setRunList_lead (l : List RunEntry) : (s.setRunList l).lead = s.lead := rfl
@[simp] theorem State.setRunList_slots (l : List RunEntry) : (s.setRunList l).slots = s.slots := rfl
@[simp] theorem State.setRunList_playbacks (l : List RunEntry) : (s.setRunList l).playbacks = s.playbacks := rfl
@[simp] theorem State.setRunList_channels (l : List RunEntry) : (s.setRunList l).channels = s.channels := rfl
@[simp] theorem State.setRunList_runList (l : List RunEntry) : (s.setRunList l).runList = l := rfl
@[simp] theorem State.setRunList_births (l : List RunEntry) : (s.setRunList l).births = s.births := rfl
@[simp] theorem State.setRunList_banks (l : List RunEntry) : (s.setRunList l).banks = s.banks := rfl
@[simp] theorem State.setRunList_liveBank (l : List RunEntry) : (s.setRunList l).liveBank = s.liveBank := rfl
@[simp] theorem State.setRunList_liveMap (l : List RunEntry) : (s.setRunList l).liveMap = s.liveMap := rfl
@[simp] theorem State.setRunList_rebuild (l : List RunEntry) : (s.setRunList l).rebuild = s.rebuild := rfl
@[simp] theorem State.setRunList_rig (l : List RunEntry) : (s.setRunList l).rig = s.rig := rfl
@[simp] theorem State.setRunList_lawFaults (l : List RunEntry) : (s.setRunList l).lawFaults = s.lawFaults := rfl
@[simp] theorem State.setRunList_parks (l : List RunEntry) : (s.setRunList l).parks = s.parks := rfl
@[simp] theorem State.setRunList_stage (l : List RunEntry) : (s.setRunList l).stage = s.stage := rfl
@[simp] theorem State.setRunList_deskRaised (l : List RunEntry) : (s.setRunList l).deskRaised = s.deskRaised := rfl
@[simp] theorem State.setRunList_grand (l : List RunEntry) : (s.setRunList l).grand = s.grand := rfl
@[simp] theorem State.setRunList_blackout (l : List RunEntry) : (s.setRunList l).blackout = s.blackout := rfl
@[simp] theorem State.setRunList_racks (l : List RunEntry) : (s.setRunList l).racks = s.racks := rfl
@[simp] theorem State.setRunList_storedBanks (l : List RunEntry) : (s.setRunList l).storedBanks = s.storedBanks := rfl
@[simp] theorem State.setRunList_storedRig (l : List RunEntry) : (s.setRunList l).storedRig = s.storedRig := rfl
@[simp] theorem State.setRunList_saving (l : List RunEntry) : (s.setRunList l).saving = s.saving := rfl
@[simp] theorem State.setRunList_pending (l : List RunEntry) : (s.setRunList l).pending = s.pending := rfl

/-! ### `State.modEntry` -/

@[simp] theorem State.modEntry_power (n : Fin 16) (f : RunEntry → RunEntry) : (s.modEntry n f).power = s.power := rfl
@[simp] theorem State.modEntry_ports (n : Fin 16) (f : RunEntry → RunEntry) : (s.modEntry n f).ports = s.ports := rfl
@[simp] theorem State.modEntry_lead (n : Fin 16) (f : RunEntry → RunEntry) : (s.modEntry n f).lead = s.lead := rfl
@[simp] theorem State.modEntry_slots (n : Fin 16) (f : RunEntry → RunEntry) : (s.modEntry n f).slots = s.slots := rfl
@[simp] theorem State.modEntry_playbacks (n : Fin 16) (f : RunEntry → RunEntry) : (s.modEntry n f).playbacks = s.playbacks := rfl
@[simp] theorem State.modEntry_channels (n : Fin 16) (f : RunEntry → RunEntry) : (s.modEntry n f).channels = s.channels := rfl
@[simp] theorem State.modEntry_runList (n : Fin 16) (f : RunEntry → RunEntry) : (s.modEntry n f).runList = s.runList.map fun e => if e.number = n then f e else e := rfl
@[simp] theorem State.modEntry_births (n : Fin 16) (f : RunEntry → RunEntry) : (s.modEntry n f).births = s.births := rfl
@[simp] theorem State.modEntry_banks (n : Fin 16) (f : RunEntry → RunEntry) : (s.modEntry n f).banks = s.banks := rfl
@[simp] theorem State.modEntry_liveBank (n : Fin 16) (f : RunEntry → RunEntry) : (s.modEntry n f).liveBank = s.liveBank := rfl
@[simp] theorem State.modEntry_liveMap (n : Fin 16) (f : RunEntry → RunEntry) : (s.modEntry n f).liveMap = s.liveMap := rfl
@[simp] theorem State.modEntry_rebuild (n : Fin 16) (f : RunEntry → RunEntry) : (s.modEntry n f).rebuild = s.rebuild := rfl
@[simp] theorem State.modEntry_rig (n : Fin 16) (f : RunEntry → RunEntry) : (s.modEntry n f).rig = s.rig := rfl
@[simp] theorem State.modEntry_lawFaults (n : Fin 16) (f : RunEntry → RunEntry) : (s.modEntry n f).lawFaults = s.lawFaults := rfl
@[simp] theorem State.modEntry_parks (n : Fin 16) (f : RunEntry → RunEntry) : (s.modEntry n f).parks = s.parks := rfl
@[simp] theorem State.modEntry_stage (n : Fin 16) (f : RunEntry → RunEntry) : (s.modEntry n f).stage = s.stage := rfl
@[simp] theorem State.modEntry_deskRaised (n : Fin 16) (f : RunEntry → RunEntry) : (s.modEntry n f).deskRaised = s.deskRaised := rfl
@[simp] theorem State.modEntry_grand (n : Fin 16) (f : RunEntry → RunEntry) : (s.modEntry n f).grand = s.grand := rfl
@[simp] theorem State.modEntry_blackout (n : Fin 16) (f : RunEntry → RunEntry) : (s.modEntry n f).blackout = s.blackout := rfl
@[simp] theorem State.modEntry_racks (n : Fin 16) (f : RunEntry → RunEntry) : (s.modEntry n f).racks = s.racks := rfl
@[simp] theorem State.modEntry_storedBanks (n : Fin 16) (f : RunEntry → RunEntry) : (s.modEntry n f).storedBanks = s.storedBanks := rfl
@[simp] theorem State.modEntry_storedRig (n : Fin 16) (f : RunEntry → RunEntry) : (s.modEntry n f).storedRig = s.storedRig := rfl
@[simp] theorem State.modEntry_saving (n : Fin 16) (f : RunEntry → RunEntry) : (s.modEntry n f).saving = s.saving := rfl
@[simp] theorem State.modEntry_pending (n : Fin 16) (f : RunEntry → RunEntry) : (s.modEntry n f).pending = s.pending := rfl

/-! ### `State.setRig` -/

@[simp] theorem State.setRig_power (r : RigRecord) : (s.setRig r).power = s.power := rfl
@[simp] theorem State.setRig_ports (r : RigRecord) : (s.setRig r).ports = s.ports := rfl
@[simp] theorem State.setRig_lead (r : RigRecord) : (s.setRig r).lead = s.lead := rfl
@[simp] theorem State.setRig_slots (r : RigRecord) : (s.setRig r).slots = s.slots := rfl
@[simp] theorem State.setRig_playbacks (r : RigRecord) : (s.setRig r).playbacks = s.playbacks := rfl
@[simp] theorem State.setRig_channels (r : RigRecord) : (s.setRig r).channels = s.channels := rfl
@[simp] theorem State.setRig_runList (r : RigRecord) : (s.setRig r).runList = s.runList := rfl
@[simp] theorem State.setRig_births (r : RigRecord) : (s.setRig r).births = s.births := rfl
@[simp] theorem State.setRig_banks (r : RigRecord) : (s.setRig r).banks = s.banks := rfl
@[simp] theorem State.setRig_liveBank (r : RigRecord) : (s.setRig r).liveBank = s.liveBank := rfl
@[simp] theorem State.setRig_liveMap (r : RigRecord) : (s.setRig r).liveMap = s.liveMap := rfl
@[simp] theorem State.setRig_rebuild (r : RigRecord) : (s.setRig r).rebuild = s.rebuild := rfl
@[simp] theorem State.setRig_rig (r : RigRecord) : (s.setRig r).rig = r := rfl
@[simp] theorem State.setRig_lawFaults (r : RigRecord) : (s.setRig r).lawFaults = s.lawFaults := rfl
@[simp] theorem State.setRig_parks (r : RigRecord) : (s.setRig r).parks = s.parks := rfl
@[simp] theorem State.setRig_stage (r : RigRecord) : (s.setRig r).stage = s.stage := rfl
@[simp] theorem State.setRig_deskRaised (r : RigRecord) : (s.setRig r).deskRaised = s.deskRaised := rfl
@[simp] theorem State.setRig_grand (r : RigRecord) : (s.setRig r).grand = s.grand := rfl
@[simp] theorem State.setRig_blackout (r : RigRecord) : (s.setRig r).blackout = s.blackout := rfl
@[simp] theorem State.setRig_racks (r : RigRecord) : (s.setRig r).racks = s.racks := rfl
@[simp] theorem State.setRig_storedBanks (r : RigRecord) : (s.setRig r).storedBanks = s.storedBanks := rfl
@[simp] theorem State.setRig_storedRig (r : RigRecord) : (s.setRig r).storedRig = s.storedRig := rfl
@[simp] theorem State.setRig_saving (r : RigRecord) : (s.setRig r).saving = s.saving := rfl
@[simp] theorem State.setRig_pending (r : RigRecord) : (s.setRig r).pending = s.pending := rfl

/-! ### `State.setProfiles` -/

@[simp] theorem State.setProfiles_power (r : RigRecord) : (s.setProfiles r).power = s.power := rfl
@[simp] theorem State.setProfiles_ports (r : RigRecord) : (s.setProfiles r).ports = s.ports := rfl
@[simp] theorem State.setProfiles_lead (r : RigRecord) : (s.setProfiles r).lead = s.lead := rfl
@[simp] theorem State.setProfiles_slots (r : RigRecord) : (s.setProfiles r).slots = s.slots := rfl
@[simp] theorem State.setProfiles_playbacks (r : RigRecord) : (s.setProfiles r).playbacks = s.playbacks := rfl
@[simp] theorem State.setProfiles_channels (r : RigRecord) : (s.setProfiles r).channels = s.channels := rfl
@[simp] theorem State.setProfiles_runList (r : RigRecord) : (s.setProfiles r).runList = s.runList := rfl
@[simp] theorem State.setProfiles_births (r : RigRecord) : (s.setProfiles r).births = s.births := rfl
@[simp] theorem State.setProfiles_banks (r : RigRecord) : (s.setProfiles r).banks = s.banks := rfl
@[simp] theorem State.setProfiles_liveBank (r : RigRecord) : (s.setProfiles r).liveBank = s.liveBank := rfl
@[simp] theorem State.setProfiles_liveMap (r : RigRecord) : (s.setProfiles r).liveMap = s.liveMap := rfl
@[simp] theorem State.setProfiles_rebuild (r : RigRecord) : (s.setProfiles r).rebuild = s.rebuild := rfl
@[simp] theorem State.setProfiles_rig (r : RigRecord) : (s.setProfiles r).rig = r := rfl
@[simp] theorem State.setProfiles_lawFaults (r : RigRecord) : (s.setProfiles r).lawFaults = countLawFaults r := rfl
@[simp] theorem State.setProfiles_parks (r : RigRecord) : (s.setProfiles r).parks = s.parks := rfl
@[simp] theorem State.setProfiles_stage (r : RigRecord) : (s.setProfiles r).stage = s.stage := rfl
@[simp] theorem State.setProfiles_deskRaised (r : RigRecord) : (s.setProfiles r).deskRaised = s.deskRaised := rfl
@[simp] theorem State.setProfiles_grand (r : RigRecord) : (s.setProfiles r).grand = s.grand := rfl
@[simp] theorem State.setProfiles_blackout (r : RigRecord) : (s.setProfiles r).blackout = s.blackout := rfl
@[simp] theorem State.setProfiles_racks (r : RigRecord) : (s.setProfiles r).racks = s.racks := rfl
@[simp] theorem State.setProfiles_storedBanks (r : RigRecord) : (s.setProfiles r).storedBanks = s.storedBanks := rfl
@[simp] theorem State.setProfiles_storedRig (r : RigRecord) : (s.setProfiles r).storedRig = s.storedRig := rfl
@[simp] theorem State.setProfiles_saving (r : RigRecord) : (s.setProfiles r).saving = s.saving := rfl
@[simp] theorem State.setProfiles_pending (r : RigRecord) : (s.setProfiles r).pending = s.pending := rfl

/-! ### `State.setBank` -/

@[simp] theorem State.setBank_power (n : Fin 4) (b : List PatchEntry) : (s.setBank n b).power = s.power := rfl
@[simp] theorem State.setBank_ports (n : Fin 4) (b : List PatchEntry) : (s.setBank n b).ports = s.ports := rfl
@[simp] theorem State.setBank_lead (n : Fin 4) (b : List PatchEntry) : (s.setBank n b).lead = s.lead := rfl
@[simp] theorem State.setBank_slots (n : Fin 4) (b : List PatchEntry) : (s.setBank n b).slots = s.slots := rfl
@[simp] theorem State.setBank_playbacks (n : Fin 4) (b : List PatchEntry) : (s.setBank n b).playbacks = s.playbacks := rfl
@[simp] theorem State.setBank_channels (n : Fin 4) (b : List PatchEntry) : (s.setBank n b).channels = s.channels := rfl
@[simp] theorem State.setBank_runList (n : Fin 4) (b : List PatchEntry) : (s.setBank n b).runList = s.runList := rfl
@[simp] theorem State.setBank_births (n : Fin 4) (b : List PatchEntry) : (s.setBank n b).births = s.births := rfl
@[simp] theorem State.setBank_banks (n : Fin 4) (b : List PatchEntry) : (s.setBank n b).banks = s.banks.set n b := rfl
@[simp] theorem State.setBank_liveBank (n : Fin 4) (b : List PatchEntry) : (s.setBank n b).liveBank = s.liveBank := rfl
@[simp] theorem State.setBank_liveMap (n : Fin 4) (b : List PatchEntry) : (s.setBank n b).liveMap = s.liveMap := rfl
@[simp] theorem State.setBank_rebuild (n : Fin 4) (b : List PatchEntry) : (s.setBank n b).rebuild = s.rebuild := rfl
@[simp] theorem State.setBank_rig (n : Fin 4) (b : List PatchEntry) : (s.setBank n b).rig = s.rig := rfl
@[simp] theorem State.setBank_lawFaults (n : Fin 4) (b : List PatchEntry) : (s.setBank n b).lawFaults = s.lawFaults := rfl
@[simp] theorem State.setBank_parks (n : Fin 4) (b : List PatchEntry) : (s.setBank n b).parks = s.parks := rfl
@[simp] theorem State.setBank_stage (n : Fin 4) (b : List PatchEntry) : (s.setBank n b).stage = s.stage := rfl
@[simp] theorem State.setBank_deskRaised (n : Fin 4) (b : List PatchEntry) : (s.setBank n b).deskRaised = s.deskRaised := rfl
@[simp] theorem State.setBank_grand (n : Fin 4) (b : List PatchEntry) : (s.setBank n b).grand = s.grand := rfl
@[simp] theorem State.setBank_blackout (n : Fin 4) (b : List PatchEntry) : (s.setBank n b).blackout = s.blackout := rfl
@[simp] theorem State.setBank_racks (n : Fin 4) (b : List PatchEntry) : (s.setBank n b).racks = s.racks := rfl
@[simp] theorem State.setBank_storedBanks (n : Fin 4) (b : List PatchEntry) : (s.setBank n b).storedBanks = s.storedBanks := rfl
@[simp] theorem State.setBank_storedRig (n : Fin 4) (b : List PatchEntry) : (s.setBank n b).storedRig = s.storedRig := rfl
@[simp] theorem State.setBank_saving (n : Fin 4) (b : List PatchEntry) : (s.setBank n b).saving = s.saving := rfl
@[simp] theorem State.setBank_pending (n : Fin 4) (b : List PatchEntry) : (s.setBank n b).pending = s.pending := rfl

/-! ### `State.setRack` -/

@[simp] theorem State.setRack_power (k : Fin 3) (x : RackLine) : (s.setRack k x).power = s.power := rfl
@[simp] theorem State.setRack_ports (k : Fin 3) (x : RackLine) : (s.setRack k x).ports = s.ports := rfl
@[simp] theorem State.setRack_lead (k : Fin 3) (x : RackLine) : (s.setRack k x).lead = s.lead := rfl
@[simp] theorem State.setRack_slots (k : Fin 3) (x : RackLine) : (s.setRack k x).slots = s.slots := rfl
@[simp] theorem State.setRack_playbacks (k : Fin 3) (x : RackLine) : (s.setRack k x).playbacks = s.playbacks := rfl
@[simp] theorem State.setRack_channels (k : Fin 3) (x : RackLine) : (s.setRack k x).channels = s.channels := rfl
@[simp] theorem State.setRack_runList (k : Fin 3) (x : RackLine) : (s.setRack k x).runList = s.runList := rfl
@[simp] theorem State.setRack_births (k : Fin 3) (x : RackLine) : (s.setRack k x).births = s.births := rfl
@[simp] theorem State.setRack_banks (k : Fin 3) (x : RackLine) : (s.setRack k x).banks = s.banks := rfl
@[simp] theorem State.setRack_liveBank (k : Fin 3) (x : RackLine) : (s.setRack k x).liveBank = s.liveBank := rfl
@[simp] theorem State.setRack_liveMap (k : Fin 3) (x : RackLine) : (s.setRack k x).liveMap = s.liveMap := rfl
@[simp] theorem State.setRack_rebuild (k : Fin 3) (x : RackLine) : (s.setRack k x).rebuild = s.rebuild := rfl
@[simp] theorem State.setRack_rig (k : Fin 3) (x : RackLine) : (s.setRack k x).rig = s.rig := rfl
@[simp] theorem State.setRack_lawFaults (k : Fin 3) (x : RackLine) : (s.setRack k x).lawFaults = s.lawFaults := rfl
@[simp] theorem State.setRack_parks (k : Fin 3) (x : RackLine) : (s.setRack k x).parks = s.parks := rfl
@[simp] theorem State.setRack_stage (k : Fin 3) (x : RackLine) : (s.setRack k x).stage = s.stage := rfl
@[simp] theorem State.setRack_deskRaised (k : Fin 3) (x : RackLine) : (s.setRack k x).deskRaised = s.deskRaised := rfl
@[simp] theorem State.setRack_grand (k : Fin 3) (x : RackLine) : (s.setRack k x).grand = s.grand := rfl
@[simp] theorem State.setRack_blackout (k : Fin 3) (x : RackLine) : (s.setRack k x).blackout = s.blackout := rfl
@[simp] theorem State.setRack_racks (k : Fin 3) (x : RackLine) : (s.setRack k x).racks = s.racks.set k x := rfl
@[simp] theorem State.setRack_storedBanks (k : Fin 3) (x : RackLine) : (s.setRack k x).storedBanks = s.storedBanks := rfl
@[simp] theorem State.setRack_storedRig (k : Fin 3) (x : RackLine) : (s.setRack k x).storedRig = s.storedRig := rfl
@[simp] theorem State.setRack_saving (k : Fin 3) (x : RackLine) : (s.setRack k x).saving = s.saving := rfl
@[simp] theorem State.setRack_pending (k : Fin 3) (x : RackLine) : (s.setRack k x).pending = s.pending := rfl

/-! ### `State.setParks` -/

@[simp] theorem State.setParks_power (ps : List Park) : (s.setParks ps).power = s.power := rfl
@[simp] theorem State.setParks_ports (ps : List Park) : (s.setParks ps).ports = s.ports := rfl
@[simp] theorem State.setParks_lead (ps : List Park) : (s.setParks ps).lead = s.lead := rfl
@[simp] theorem State.setParks_slots (ps : List Park) : (s.setParks ps).slots = s.slots := rfl
@[simp] theorem State.setParks_playbacks (ps : List Park) : (s.setParks ps).playbacks = s.playbacks := rfl
@[simp] theorem State.setParks_channels (ps : List Park) : (s.setParks ps).channels = s.channels := rfl
@[simp] theorem State.setParks_runList (ps : List Park) : (s.setParks ps).runList = s.runList := rfl
@[simp] theorem State.setParks_births (ps : List Park) : (s.setParks ps).births = s.births := rfl
@[simp] theorem State.setParks_banks (ps : List Park) : (s.setParks ps).banks = s.banks := rfl
@[simp] theorem State.setParks_liveBank (ps : List Park) : (s.setParks ps).liveBank = s.liveBank := rfl
@[simp] theorem State.setParks_liveMap (ps : List Park) : (s.setParks ps).liveMap = s.liveMap := rfl
@[simp] theorem State.setParks_rebuild (ps : List Park) : (s.setParks ps).rebuild = s.rebuild := rfl
@[simp] theorem State.setParks_rig (ps : List Park) : (s.setParks ps).rig = s.rig := rfl
@[simp] theorem State.setParks_lawFaults (ps : List Park) : (s.setParks ps).lawFaults = s.lawFaults := rfl
@[simp] theorem State.setParks_parks (ps : List Park) : (s.setParks ps).parks = ps := rfl
@[simp] theorem State.setParks_stage (ps : List Park) : (s.setParks ps).stage = s.stage := rfl
@[simp] theorem State.setParks_deskRaised (ps : List Park) : (s.setParks ps).deskRaised = s.deskRaised := rfl
@[simp] theorem State.setParks_grand (ps : List Park) : (s.setParks ps).grand = s.grand := rfl
@[simp] theorem State.setParks_blackout (ps : List Park) : (s.setParks ps).blackout = s.blackout := rfl
@[simp] theorem State.setParks_racks (ps : List Park) : (s.setParks ps).racks = s.racks := rfl
@[simp] theorem State.setParks_storedBanks (ps : List Park) : (s.setParks ps).storedBanks = s.storedBanks := rfl
@[simp] theorem State.setParks_storedRig (ps : List Park) : (s.setParks ps).storedRig = s.storedRig := rfl
@[simp] theorem State.setParks_saving (ps : List Park) : (s.setParks ps).saving = s.saving := rfl
@[simp] theorem State.setParks_pending (ps : List Park) : (s.setParks ps).pending = s.pending := rfl

/-! ### `State.setLine` -/

@[simp] theorem State.setLine_power (n : Fin 4) (x : StageLine) : (s.setLine n x).power = s.power := rfl
@[simp] theorem State.setLine_ports (n : Fin 4) (x : StageLine) : (s.setLine n x).ports = s.ports := rfl
@[simp] theorem State.setLine_lead (n : Fin 4) (x : StageLine) : (s.setLine n x).lead = s.lead := rfl
@[simp] theorem State.setLine_slots (n : Fin 4) (x : StageLine) : (s.setLine n x).slots = s.slots := rfl
@[simp] theorem State.setLine_playbacks (n : Fin 4) (x : StageLine) : (s.setLine n x).playbacks = s.playbacks := rfl
@[simp] theorem State.setLine_channels (n : Fin 4) (x : StageLine) : (s.setLine n x).channels = s.channels := rfl
@[simp] theorem State.setLine_runList (n : Fin 4) (x : StageLine) : (s.setLine n x).runList = s.runList := rfl
@[simp] theorem State.setLine_births (n : Fin 4) (x : StageLine) : (s.setLine n x).births = s.births := rfl
@[simp] theorem State.setLine_banks (n : Fin 4) (x : StageLine) : (s.setLine n x).banks = s.banks := rfl
@[simp] theorem State.setLine_liveBank (n : Fin 4) (x : StageLine) : (s.setLine n x).liveBank = s.liveBank := rfl
@[simp] theorem State.setLine_liveMap (n : Fin 4) (x : StageLine) : (s.setLine n x).liveMap = s.liveMap := rfl
@[simp] theorem State.setLine_rebuild (n : Fin 4) (x : StageLine) : (s.setLine n x).rebuild = s.rebuild := rfl
@[simp] theorem State.setLine_rig (n : Fin 4) (x : StageLine) : (s.setLine n x).rig = s.rig := rfl
@[simp] theorem State.setLine_lawFaults (n : Fin 4) (x : StageLine) : (s.setLine n x).lawFaults = s.lawFaults := rfl
@[simp] theorem State.setLine_parks (n : Fin 4) (x : StageLine) : (s.setLine n x).parks = s.parks := rfl
@[simp] theorem State.setLine_stage (n : Fin 4) (x : StageLine) : (s.setLine n x).stage = s.stage.set n x := rfl
@[simp] theorem State.setLine_deskRaised (n : Fin 4) (x : StageLine) : (s.setLine n x).deskRaised = s.deskRaised := rfl
@[simp] theorem State.setLine_grand (n : Fin 4) (x : StageLine) : (s.setLine n x).grand = s.grand := rfl
@[simp] theorem State.setLine_blackout (n : Fin 4) (x : StageLine) : (s.setLine n x).blackout = s.blackout := rfl
@[simp] theorem State.setLine_racks (n : Fin 4) (x : StageLine) : (s.setLine n x).racks = s.racks := rfl
@[simp] theorem State.setLine_storedBanks (n : Fin 4) (x : StageLine) : (s.setLine n x).storedBanks = s.storedBanks := rfl
@[simp] theorem State.setLine_storedRig (n : Fin 4) (x : StageLine) : (s.setLine n x).storedRig = s.storedRig := rfl
@[simp] theorem State.setLine_saving (n : Fin 4) (x : StageLine) : (s.setLine n x).saving = s.saving := rfl
@[simp] theorem State.setLine_pending (n : Fin 4) (x : StageLine) : (s.setLine n x).pending = s.pending := rfl

/-! ### `State.setLead` -/

@[simp] theorem State.setLead_power (d : Option Desk) : (s.setLead d).power = s.power := rfl
@[simp] theorem State.setLead_ports (d : Option Desk) : (s.setLead d).ports = s.ports := rfl
@[simp] theorem State.setLead_lead (d : Option Desk) : (s.setLead d).lead = d := rfl
@[simp] theorem State.setLead_slots (d : Option Desk) : (s.setLead d).slots = s.slots := rfl
@[simp] theorem State.setLead_playbacks (d : Option Desk) : (s.setLead d).playbacks = s.playbacks := rfl
@[simp] theorem State.setLead_channels (d : Option Desk) : (s.setLead d).channels = s.channels := rfl
@[simp] theorem State.setLead_runList (d : Option Desk) : (s.setLead d).runList = s.runList := rfl
@[simp] theorem State.setLead_births (d : Option Desk) : (s.setLead d).births = s.births := rfl
@[simp] theorem State.setLead_banks (d : Option Desk) : (s.setLead d).banks = s.banks := rfl
@[simp] theorem State.setLead_liveBank (d : Option Desk) : (s.setLead d).liveBank = s.liveBank := rfl
@[simp] theorem State.setLead_liveMap (d : Option Desk) : (s.setLead d).liveMap = s.liveMap := rfl
@[simp] theorem State.setLead_rebuild (d : Option Desk) : (s.setLead d).rebuild = s.rebuild := rfl
@[simp] theorem State.setLead_rig (d : Option Desk) : (s.setLead d).rig = s.rig := rfl
@[simp] theorem State.setLead_lawFaults (d : Option Desk) : (s.setLead d).lawFaults = s.lawFaults := rfl
@[simp] theorem State.setLead_parks (d : Option Desk) : (s.setLead d).parks = s.parks := rfl
@[simp] theorem State.setLead_stage (d : Option Desk) : (s.setLead d).stage = s.stage := rfl
@[simp] theorem State.setLead_deskRaised (d : Option Desk) : (s.setLead d).deskRaised = s.deskRaised := rfl
@[simp] theorem State.setLead_grand (d : Option Desk) : (s.setLead d).grand = s.grand := rfl
@[simp] theorem State.setLead_blackout (d : Option Desk) : (s.setLead d).blackout = s.blackout := rfl
@[simp] theorem State.setLead_racks (d : Option Desk) : (s.setLead d).racks = s.racks := rfl
@[simp] theorem State.setLead_storedBanks (d : Option Desk) : (s.setLead d).storedBanks = s.storedBanks := rfl
@[simp] theorem State.setLead_storedRig (d : Option Desk) : (s.setLead d).storedRig = s.storedRig := rfl
@[simp] theorem State.setLead_saving (d : Option Desk) : (s.setLead d).saving = s.saving := rfl
@[simp] theorem State.setLead_pending (d : Option Desk) : (s.setLead d).pending = s.pending := rfl

/-! ### `State.setDeskRaised` -/

@[simp] theorem State.setDeskRaised_power (k : Fin 4) (b : Bool) : (s.setDeskRaised k b).power = s.power := rfl
@[simp] theorem State.setDeskRaised_ports (k : Fin 4) (b : Bool) : (s.setDeskRaised k b).ports = s.ports := rfl
@[simp] theorem State.setDeskRaised_lead (k : Fin 4) (b : Bool) : (s.setDeskRaised k b).lead = s.lead := rfl
@[simp] theorem State.setDeskRaised_slots (k : Fin 4) (b : Bool) : (s.setDeskRaised k b).slots = s.slots := rfl
@[simp] theorem State.setDeskRaised_playbacks (k : Fin 4) (b : Bool) : (s.setDeskRaised k b).playbacks = s.playbacks := rfl
@[simp] theorem State.setDeskRaised_channels (k : Fin 4) (b : Bool) : (s.setDeskRaised k b).channels = s.channels := rfl
@[simp] theorem State.setDeskRaised_runList (k : Fin 4) (b : Bool) : (s.setDeskRaised k b).runList = s.runList := rfl
@[simp] theorem State.setDeskRaised_births (k : Fin 4) (b : Bool) : (s.setDeskRaised k b).births = s.births := rfl
@[simp] theorem State.setDeskRaised_banks (k : Fin 4) (b : Bool) : (s.setDeskRaised k b).banks = s.banks := rfl
@[simp] theorem State.setDeskRaised_liveBank (k : Fin 4) (b : Bool) : (s.setDeskRaised k b).liveBank = s.liveBank := rfl
@[simp] theorem State.setDeskRaised_liveMap (k : Fin 4) (b : Bool) : (s.setDeskRaised k b).liveMap = s.liveMap := rfl
@[simp] theorem State.setDeskRaised_rebuild (k : Fin 4) (b : Bool) : (s.setDeskRaised k b).rebuild = s.rebuild := rfl
@[simp] theorem State.setDeskRaised_rig (k : Fin 4) (b : Bool) : (s.setDeskRaised k b).rig = s.rig := rfl
@[simp] theorem State.setDeskRaised_lawFaults (k : Fin 4) (b : Bool) : (s.setDeskRaised k b).lawFaults = s.lawFaults := rfl
@[simp] theorem State.setDeskRaised_parks (k : Fin 4) (b : Bool) : (s.setDeskRaised k b).parks = s.parks := rfl
@[simp] theorem State.setDeskRaised_stage (k : Fin 4) (b : Bool) : (s.setDeskRaised k b).stage = s.stage := rfl
@[simp] theorem State.setDeskRaised_deskRaised (k : Fin 4) (b : Bool) : (s.setDeskRaised k b).deskRaised = s.deskRaised.set k b := rfl
@[simp] theorem State.setDeskRaised_grand (k : Fin 4) (b : Bool) : (s.setDeskRaised k b).grand = s.grand := rfl
@[simp] theorem State.setDeskRaised_blackout (k : Fin 4) (b : Bool) : (s.setDeskRaised k b).blackout = s.blackout := rfl
@[simp] theorem State.setDeskRaised_racks (k : Fin 4) (b : Bool) : (s.setDeskRaised k b).racks = s.racks := rfl
@[simp] theorem State.setDeskRaised_storedBanks (k : Fin 4) (b : Bool) : (s.setDeskRaised k b).storedBanks = s.storedBanks := rfl
@[simp] theorem State.setDeskRaised_storedRig (k : Fin 4) (b : Bool) : (s.setDeskRaised k b).storedRig = s.storedRig := rfl
@[simp] theorem State.setDeskRaised_saving (k : Fin 4) (b : Bool) : (s.setDeskRaised k b).saving = s.saving := rfl
@[simp] theorem State.setDeskRaised_pending (k : Fin 4) (b : Bool) : (s.setDeskRaised k b).pending = s.pending := rfl

/-! ### `State.setFill` -/

@[simp] theorem State.setFill_power (d : Desk) (f : Option Fill) : (s.setFill d f).power = s.power := rfl
@[simp] theorem State.setFill_lead (d : Desk) (f : Option Fill) : (s.setFill d f).lead = s.lead := rfl
@[simp] theorem State.setFill_slots (d : Desk) (f : Option Fill) : (s.setFill d f).slots = s.slots := rfl
@[simp] theorem State.setFill_playbacks (d : Desk) (f : Option Fill) : (s.setFill d f).playbacks = s.playbacks := rfl
@[simp] theorem State.setFill_channels (d : Desk) (f : Option Fill) : (s.setFill d f).channels = s.channels := rfl
@[simp] theorem State.setFill_runList (d : Desk) (f : Option Fill) : (s.setFill d f).runList = s.runList := rfl
@[simp] theorem State.setFill_births (d : Desk) (f : Option Fill) : (s.setFill d f).births = s.births := rfl
@[simp] theorem State.setFill_banks (d : Desk) (f : Option Fill) : (s.setFill d f).banks = s.banks := rfl
@[simp] theorem State.setFill_liveBank (d : Desk) (f : Option Fill) : (s.setFill d f).liveBank = s.liveBank := rfl
@[simp] theorem State.setFill_liveMap (d : Desk) (f : Option Fill) : (s.setFill d f).liveMap = s.liveMap := rfl
@[simp] theorem State.setFill_rebuild (d : Desk) (f : Option Fill) : (s.setFill d f).rebuild = s.rebuild := rfl
@[simp] theorem State.setFill_rig (d : Desk) (f : Option Fill) : (s.setFill d f).rig = s.rig := rfl
@[simp] theorem State.setFill_lawFaults (d : Desk) (f : Option Fill) : (s.setFill d f).lawFaults = s.lawFaults := rfl
@[simp] theorem State.setFill_parks (d : Desk) (f : Option Fill) : (s.setFill d f).parks = s.parks := rfl
@[simp] theorem State.setFill_stage (d : Desk) (f : Option Fill) : (s.setFill d f).stage = s.stage := rfl
@[simp] theorem State.setFill_deskRaised (d : Desk) (f : Option Fill) : (s.setFill d f).deskRaised = s.deskRaised := rfl
@[simp] theorem State.setFill_grand (d : Desk) (f : Option Fill) : (s.setFill d f).grand = s.grand := rfl
@[simp] theorem State.setFill_blackout (d : Desk) (f : Option Fill) : (s.setFill d f).blackout = s.blackout := rfl
@[simp] theorem State.setFill_racks (d : Desk) (f : Option Fill) : (s.setFill d f).racks = s.racks := rfl
@[simp] theorem State.setFill_storedBanks (d : Desk) (f : Option Fill) : (s.setFill d f).storedBanks = s.storedBanks := rfl
@[simp] theorem State.setFill_storedRig (d : Desk) (f : Option Fill) : (s.setFill d f).storedRig = s.storedRig := rfl
@[simp] theorem State.setFill_saving (d : Desk) (f : Option Fill) : (s.setFill d f).saving = s.saving := rfl
@[simp] theorem State.setFill_pending (d : Desk) (f : Option Fill) : (s.setFill d f).pending = s.pending := rfl

/-! ### `State.notify` -/

@[simp] theorem State.notify_power (l : Link) (n : Notice) : (s.notify l n).power = s.power := rfl
@[simp] theorem State.notify_lead (l : Link) (n : Notice) : (s.notify l n).lead = s.lead := rfl
@[simp] theorem State.notify_slots (l : Link) (n : Notice) : (s.notify l n).slots = s.slots := rfl
@[simp] theorem State.notify_playbacks (l : Link) (n : Notice) : (s.notify l n).playbacks = s.playbacks := rfl
@[simp] theorem State.notify_channels (l : Link) (n : Notice) : (s.notify l n).channels = s.channels := rfl
@[simp] theorem State.notify_runList (l : Link) (n : Notice) : (s.notify l n).runList = s.runList := rfl
@[simp] theorem State.notify_births (l : Link) (n : Notice) : (s.notify l n).births = s.births := rfl
@[simp] theorem State.notify_banks (l : Link) (n : Notice) : (s.notify l n).banks = s.banks := rfl
@[simp] theorem State.notify_liveBank (l : Link) (n : Notice) : (s.notify l n).liveBank = s.liveBank := rfl
@[simp] theorem State.notify_liveMap (l : Link) (n : Notice) : (s.notify l n).liveMap = s.liveMap := rfl
@[simp] theorem State.notify_rebuild (l : Link) (n : Notice) : (s.notify l n).rebuild = s.rebuild := rfl
@[simp] theorem State.notify_rig (l : Link) (n : Notice) : (s.notify l n).rig = s.rig := rfl
@[simp] theorem State.notify_lawFaults (l : Link) (n : Notice) : (s.notify l n).lawFaults = s.lawFaults := rfl
@[simp] theorem State.notify_parks (l : Link) (n : Notice) : (s.notify l n).parks = s.parks := rfl
@[simp] theorem State.notify_stage (l : Link) (n : Notice) : (s.notify l n).stage = s.stage := rfl
@[simp] theorem State.notify_deskRaised (l : Link) (n : Notice) : (s.notify l n).deskRaised = s.deskRaised := rfl
@[simp] theorem State.notify_grand (l : Link) (n : Notice) : (s.notify l n).grand = s.grand := rfl
@[simp] theorem State.notify_blackout (l : Link) (n : Notice) : (s.notify l n).blackout = s.blackout := rfl
@[simp] theorem State.notify_racks (l : Link) (n : Notice) : (s.notify l n).racks = s.racks := rfl
@[simp] theorem State.notify_storedBanks (l : Link) (n : Notice) : (s.notify l n).storedBanks = s.storedBanks := rfl
@[simp] theorem State.notify_storedRig (l : Link) (n : Notice) : (s.notify l n).storedRig = s.storedRig := rfl
@[simp] theorem State.notify_saving (l : Link) (n : Notice) : (s.notify l n).saving = s.saving := rfl
@[simp] theorem State.notify_pending (l : Link) (n : Notice) : (s.notify l n).pending = s.pending := rfl

/-! ### `State.notifyDesks` -/

@[simp] theorem State.notifyDesks_power (n : Notice) : (s.notifyDesks n).power = s.power := rfl
@[simp] theorem State.notifyDesks_lead (n : Notice) : (s.notifyDesks n).lead = s.lead := rfl
@[simp] theorem State.notifyDesks_slots (n : Notice) : (s.notifyDesks n).slots = s.slots := rfl
@[simp] theorem State.notifyDesks_playbacks (n : Notice) : (s.notifyDesks n).playbacks = s.playbacks := rfl
@[simp] theorem State.notifyDesks_channels (n : Notice) : (s.notifyDesks n).channels = s.channels := rfl
@[simp] theorem State.notifyDesks_runList (n : Notice) : (s.notifyDesks n).runList = s.runList := rfl
@[simp] theorem State.notifyDesks_births (n : Notice) : (s.notifyDesks n).births = s.births := rfl
@[simp] theorem State.notifyDesks_banks (n : Notice) : (s.notifyDesks n).banks = s.banks := rfl
@[simp] theorem State.notifyDesks_liveBank (n : Notice) : (s.notifyDesks n).liveBank = s.liveBank := rfl
@[simp] theorem State.notifyDesks_liveMap (n : Notice) : (s.notifyDesks n).liveMap = s.liveMap := rfl
@[simp] theorem State.notifyDesks_rebuild (n : Notice) : (s.notifyDesks n).rebuild = s.rebuild := rfl
@[simp] theorem State.notifyDesks_rig (n : Notice) : (s.notifyDesks n).rig = s.rig := rfl
@[simp] theorem State.notifyDesks_lawFaults (n : Notice) : (s.notifyDesks n).lawFaults = s.lawFaults := rfl
@[simp] theorem State.notifyDesks_parks (n : Notice) : (s.notifyDesks n).parks = s.parks := rfl
@[simp] theorem State.notifyDesks_stage (n : Notice) : (s.notifyDesks n).stage = s.stage := rfl
@[simp] theorem State.notifyDesks_deskRaised (n : Notice) : (s.notifyDesks n).deskRaised = s.deskRaised := rfl
@[simp] theorem State.notifyDesks_grand (n : Notice) : (s.notifyDesks n).grand = s.grand := rfl
@[simp] theorem State.notifyDesks_blackout (n : Notice) : (s.notifyDesks n).blackout = s.blackout := rfl
@[simp] theorem State.notifyDesks_racks (n : Notice) : (s.notifyDesks n).racks = s.racks := rfl
@[simp] theorem State.notifyDesks_storedBanks (n : Notice) : (s.notifyDesks n).storedBanks = s.storedBanks := rfl
@[simp] theorem State.notifyDesks_storedRig (n : Notice) : (s.notifyDesks n).storedRig = s.storedRig := rfl
@[simp] theorem State.notifyDesks_saving (n : Notice) : (s.notifyDesks n).saving = s.saving := rfl
@[simp] theorem State.notifyDesks_pending (n : Notice) : (s.notifyDesks n).pending = s.pending := rfl

/-! ### `State.notifyAll` -/

@[simp] theorem State.notifyAll_power (n : Notice) : (s.notifyAll n).power = s.power := rfl
@[simp] theorem State.notifyAll_ports (n : Notice) : (s.notifyAll n).ports = s.ports.map (Port.notify n) := rfl
@[simp] theorem State.notifyAll_lead (n : Notice) : (s.notifyAll n).lead = s.lead := rfl
@[simp] theorem State.notifyAll_slots (n : Notice) : (s.notifyAll n).slots = s.slots := rfl
@[simp] theorem State.notifyAll_playbacks (n : Notice) : (s.notifyAll n).playbacks = s.playbacks := rfl
@[simp] theorem State.notifyAll_channels (n : Notice) : (s.notifyAll n).channels = s.channels := rfl
@[simp] theorem State.notifyAll_runList (n : Notice) : (s.notifyAll n).runList = s.runList := rfl
@[simp] theorem State.notifyAll_births (n : Notice) : (s.notifyAll n).births = s.births := rfl
@[simp] theorem State.notifyAll_banks (n : Notice) : (s.notifyAll n).banks = s.banks := rfl
@[simp] theorem State.notifyAll_liveBank (n : Notice) : (s.notifyAll n).liveBank = s.liveBank := rfl
@[simp] theorem State.notifyAll_liveMap (n : Notice) : (s.notifyAll n).liveMap = s.liveMap := rfl
@[simp] theorem State.notifyAll_rebuild (n : Notice) : (s.notifyAll n).rebuild = s.rebuild := rfl
@[simp] theorem State.notifyAll_rig (n : Notice) : (s.notifyAll n).rig = s.rig := rfl
@[simp] theorem State.notifyAll_lawFaults (n : Notice) : (s.notifyAll n).lawFaults = s.lawFaults := rfl
@[simp] theorem State.notifyAll_parks (n : Notice) : (s.notifyAll n).parks = s.parks := rfl
@[simp] theorem State.notifyAll_stage (n : Notice) : (s.notifyAll n).stage = s.stage := rfl
@[simp] theorem State.notifyAll_deskRaised (n : Notice) : (s.notifyAll n).deskRaised = s.deskRaised := rfl
@[simp] theorem State.notifyAll_grand (n : Notice) : (s.notifyAll n).grand = s.grand := rfl
@[simp] theorem State.notifyAll_blackout (n : Notice) : (s.notifyAll n).blackout = s.blackout := rfl
@[simp] theorem State.notifyAll_racks (n : Notice) : (s.notifyAll n).racks = s.racks := rfl
@[simp] theorem State.notifyAll_storedBanks (n : Notice) : (s.notifyAll n).storedBanks = s.storedBanks := rfl
@[simp] theorem State.notifyAll_storedRig (n : Notice) : (s.notifyAll n).storedRig = s.storedRig := rfl
@[simp] theorem State.notifyAll_saving (n : Notice) : (s.notifyAll n).saving = s.saving := rfl
@[simp] theorem State.notifyAll_pending (n : Notice) : (s.notifyAll n).pending = s.pending := rfl

/-! ### `State.answerHead` -/

@[simp] theorem State.answerHead_power (l : Link) (c : ResultCode) (b : List Byte) (x : Notices) : (s.answerHead l c b x).power = s.power := rfl
@[simp] theorem State.answerHead_lead (l : Link) (c : ResultCode) (b : List Byte) (x : Notices) : (s.answerHead l c b x).lead = s.lead := rfl
@[simp] theorem State.answerHead_slots (l : Link) (c : ResultCode) (b : List Byte) (x : Notices) : (s.answerHead l c b x).slots = s.slots := rfl
@[simp] theorem State.answerHead_playbacks (l : Link) (c : ResultCode) (b : List Byte) (x : Notices) : (s.answerHead l c b x).playbacks = s.playbacks := rfl
@[simp] theorem State.answerHead_channels (l : Link) (c : ResultCode) (b : List Byte) (x : Notices) : (s.answerHead l c b x).channels = s.channels := rfl
@[simp] theorem State.answerHead_runList (l : Link) (c : ResultCode) (b : List Byte) (x : Notices) : (s.answerHead l c b x).runList = s.runList := rfl
@[simp] theorem State.answerHead_births (l : Link) (c : ResultCode) (b : List Byte) (x : Notices) : (s.answerHead l c b x).births = s.births := rfl
@[simp] theorem State.answerHead_banks (l : Link) (c : ResultCode) (b : List Byte) (x : Notices) : (s.answerHead l c b x).banks = s.banks := rfl
@[simp] theorem State.answerHead_liveBank (l : Link) (c : ResultCode) (b : List Byte) (x : Notices) : (s.answerHead l c b x).liveBank = s.liveBank := rfl
@[simp] theorem State.answerHead_liveMap (l : Link) (c : ResultCode) (b : List Byte) (x : Notices) : (s.answerHead l c b x).liveMap = s.liveMap := rfl
@[simp] theorem State.answerHead_rebuild (l : Link) (c : ResultCode) (b : List Byte) (x : Notices) : (s.answerHead l c b x).rebuild = s.rebuild := rfl
@[simp] theorem State.answerHead_rig (l : Link) (c : ResultCode) (b : List Byte) (x : Notices) : (s.answerHead l c b x).rig = s.rig := rfl
@[simp] theorem State.answerHead_lawFaults (l : Link) (c : ResultCode) (b : List Byte) (x : Notices) : (s.answerHead l c b x).lawFaults = s.lawFaults := rfl
@[simp] theorem State.answerHead_parks (l : Link) (c : ResultCode) (b : List Byte) (x : Notices) : (s.answerHead l c b x).parks = s.parks := rfl
@[simp] theorem State.answerHead_stage (l : Link) (c : ResultCode) (b : List Byte) (x : Notices) : (s.answerHead l c b x).stage = s.stage := rfl
@[simp] theorem State.answerHead_deskRaised (l : Link) (c : ResultCode) (b : List Byte) (x : Notices) : (s.answerHead l c b x).deskRaised = s.deskRaised := rfl
@[simp] theorem State.answerHead_grand (l : Link) (c : ResultCode) (b : List Byte) (x : Notices) : (s.answerHead l c b x).grand = s.grand := rfl
@[simp] theorem State.answerHead_blackout (l : Link) (c : ResultCode) (b : List Byte) (x : Notices) : (s.answerHead l c b x).blackout = s.blackout := rfl
@[simp] theorem State.answerHead_racks (l : Link) (c : ResultCode) (b : List Byte) (x : Notices) : (s.answerHead l c b x).racks = s.racks := rfl
@[simp] theorem State.answerHead_storedBanks (l : Link) (c : ResultCode) (b : List Byte) (x : Notices) : (s.answerHead l c b x).storedBanks = s.storedBanks := rfl
@[simp] theorem State.answerHead_storedRig (l : Link) (c : ResultCode) (b : List Byte) (x : Notices) : (s.answerHead l c b x).storedRig = s.storedRig := rfl
@[simp] theorem State.answerHead_saving (l : Link) (c : ResultCode) (b : List Byte) (x : Notices) : (s.answerHead l c b x).saving = s.saving := rfl
@[simp] theorem State.answerHead_pending (l : Link) (c : ResultCode) (b : List Byte) (x : Notices) : (s.answerHead l c b x).pending = s.pending := rfl

/-! ### `State.arrive` -/

@[simp] theorem State.arrive_power (l : Link) (r : Request) : (s.arrive l r).power = s.power := rfl
@[simp] theorem State.arrive_lead (l : Link) (r : Request) : (s.arrive l r).lead = s.lead := rfl
@[simp] theorem State.arrive_slots (l : Link) (r : Request) : (s.arrive l r).slots = s.slots := rfl
@[simp] theorem State.arrive_playbacks (l : Link) (r : Request) : (s.arrive l r).playbacks = s.playbacks := rfl
@[simp] theorem State.arrive_channels (l : Link) (r : Request) : (s.arrive l r).channels = s.channels := rfl
@[simp] theorem State.arrive_runList (l : Link) (r : Request) : (s.arrive l r).runList = s.runList := rfl
@[simp] theorem State.arrive_births (l : Link) (r : Request) : (s.arrive l r).births = s.births := rfl
@[simp] theorem State.arrive_banks (l : Link) (r : Request) : (s.arrive l r).banks = s.banks := rfl
@[simp] theorem State.arrive_liveBank (l : Link) (r : Request) : (s.arrive l r).liveBank = s.liveBank := rfl
@[simp] theorem State.arrive_liveMap (l : Link) (r : Request) : (s.arrive l r).liveMap = s.liveMap := rfl
@[simp] theorem State.arrive_rebuild (l : Link) (r : Request) : (s.arrive l r).rebuild = s.rebuild := rfl
@[simp] theorem State.arrive_rig (l : Link) (r : Request) : (s.arrive l r).rig = s.rig := rfl
@[simp] theorem State.arrive_lawFaults (l : Link) (r : Request) : (s.arrive l r).lawFaults = s.lawFaults := rfl
@[simp] theorem State.arrive_parks (l : Link) (r : Request) : (s.arrive l r).parks = s.parks := rfl
@[simp] theorem State.arrive_stage (l : Link) (r : Request) : (s.arrive l r).stage = s.stage := rfl
@[simp] theorem State.arrive_deskRaised (l : Link) (r : Request) : (s.arrive l r).deskRaised = s.deskRaised := rfl
@[simp] theorem State.arrive_grand (l : Link) (r : Request) : (s.arrive l r).grand = s.grand := rfl
@[simp] theorem State.arrive_blackout (l : Link) (r : Request) : (s.arrive l r).blackout = s.blackout := rfl
@[simp] theorem State.arrive_racks (l : Link) (r : Request) : (s.arrive l r).racks = s.racks := rfl
@[simp] theorem State.arrive_storedBanks (l : Link) (r : Request) : (s.arrive l r).storedBanks = s.storedBanks := rfl
@[simp] theorem State.arrive_storedRig (l : Link) (r : Request) : (s.arrive l r).storedRig = s.storedRig := rfl
@[simp] theorem State.arrive_saving (l : Link) (r : Request) : (s.arrive l r).saving = s.saving := rfl
@[simp] theorem State.arrive_pending (l : Link) (r : Request) : (s.arrive l r).pending = s.pending := rfl

/-! ### `State.receive` -/

@[simp] theorem State.receive_power (l : Link) (r : Request) : (s.receive l r).power = s.power := rfl
@[simp] theorem State.receive_lead (l : Link) (r : Request) : (s.receive l r).lead = s.lead := rfl
@[simp] theorem State.receive_slots (l : Link) (r : Request) : (s.receive l r).slots = s.slots := rfl
@[simp] theorem State.receive_playbacks (l : Link) (r : Request) : (s.receive l r).playbacks = s.playbacks := rfl
@[simp] theorem State.receive_channels (l : Link) (r : Request) : (s.receive l r).channels = s.channels := rfl
@[simp] theorem State.receive_runList (l : Link) (r : Request) : (s.receive l r).runList = s.runList := rfl
@[simp] theorem State.receive_births (l : Link) (r : Request) : (s.receive l r).births = s.births := rfl
@[simp] theorem State.receive_banks (l : Link) (r : Request) : (s.receive l r).banks = s.banks := rfl
@[simp] theorem State.receive_liveBank (l : Link) (r : Request) : (s.receive l r).liveBank = s.liveBank := rfl
@[simp] theorem State.receive_liveMap (l : Link) (r : Request) : (s.receive l r).liveMap = s.liveMap := rfl
@[simp] theorem State.receive_rebuild (l : Link) (r : Request) : (s.receive l r).rebuild = s.rebuild := rfl
@[simp] theorem State.receive_rig (l : Link) (r : Request) : (s.receive l r).rig = s.rig := rfl
@[simp] theorem State.receive_lawFaults (l : Link) (r : Request) : (s.receive l r).lawFaults = s.lawFaults := rfl
@[simp] theorem State.receive_parks (l : Link) (r : Request) : (s.receive l r).parks = s.parks := rfl
@[simp] theorem State.receive_stage (l : Link) (r : Request) : (s.receive l r).stage = s.stage := rfl
@[simp] theorem State.receive_deskRaised (l : Link) (r : Request) : (s.receive l r).deskRaised = s.deskRaised := rfl
@[simp] theorem State.receive_grand (l : Link) (r : Request) : (s.receive l r).grand = s.grand := rfl
@[simp] theorem State.receive_blackout (l : Link) (r : Request) : (s.receive l r).blackout = s.blackout := rfl
@[simp] theorem State.receive_racks (l : Link) (r : Request) : (s.receive l r).racks = s.racks := rfl
@[simp] theorem State.receive_storedBanks (l : Link) (r : Request) : (s.receive l r).storedBanks = s.storedBanks := rfl
@[simp] theorem State.receive_storedRig (l : Link) (r : Request) : (s.receive l r).storedRig = s.storedRig := rfl
@[simp] theorem State.receive_saving (l : Link) (r : Request) : (s.receive l r).saving = s.saving := rfl
@[simp] theorem State.receive_pending (l : Link) (r : Request) : (s.receive l r).pending = s.pending := rfl

/-! ### `State.restartMonitors` -/

@[simp] theorem State.restartMonitors_power : (s.restartMonitors).power = s.power := rfl
@[simp] theorem State.restartMonitors_lead : (s.restartMonitors).lead = s.lead := rfl
@[simp] theorem State.restartMonitors_slots : (s.restartMonitors).slots = s.slots := rfl
@[simp] theorem State.restartMonitors_playbacks : (s.restartMonitors).playbacks = s.playbacks := rfl
@[simp] theorem State.restartMonitors_channels : (s.restartMonitors).channels = s.channels := rfl
@[simp] theorem State.restartMonitors_runList : (s.restartMonitors).runList = s.runList := rfl
@[simp] theorem State.restartMonitors_births : (s.restartMonitors).births = s.births := rfl
@[simp] theorem State.restartMonitors_banks : (s.restartMonitors).banks = s.banks := rfl
@[simp] theorem State.restartMonitors_liveBank : (s.restartMonitors).liveBank = s.liveBank := rfl
@[simp] theorem State.restartMonitors_liveMap : (s.restartMonitors).liveMap = s.liveMap := rfl
@[simp] theorem State.restartMonitors_rebuild : (s.restartMonitors).rebuild = s.rebuild := rfl
@[simp] theorem State.restartMonitors_rig : (s.restartMonitors).rig = s.rig := rfl
@[simp] theorem State.restartMonitors_lawFaults : (s.restartMonitors).lawFaults = s.lawFaults := rfl
@[simp] theorem State.restartMonitors_parks : (s.restartMonitors).parks = s.parks := rfl
@[simp] theorem State.restartMonitors_stage : (s.restartMonitors).stage = s.stage := rfl
@[simp] theorem State.restartMonitors_deskRaised : (s.restartMonitors).deskRaised = s.deskRaised := rfl
@[simp] theorem State.restartMonitors_grand : (s.restartMonitors).grand = s.grand := rfl
@[simp] theorem State.restartMonitors_blackout : (s.restartMonitors).blackout = s.blackout := rfl
@[simp] theorem State.restartMonitors_racks : (s.restartMonitors).racks = s.racks := rfl
@[simp] theorem State.restartMonitors_storedBanks : (s.restartMonitors).storedBanks = s.storedBanks := rfl
@[simp] theorem State.restartMonitors_storedRig : (s.restartMonitors).storedRig = s.storedRig := rfl
@[simp] theorem State.restartMonitors_saving : (s.restartMonitors).saving = s.saving := rfl
@[simp] theorem State.restartMonitors_pending : (s.restartMonitors).pending = s.pending := rfl

/-! ### `State.emptySlot` -/

@[simp] theorem State.emptySlot_power (t : Fin 32) : (s.emptySlot t).power = s.power := rfl
@[simp] theorem State.emptySlot_lead (t : Fin 32) : (s.emptySlot t).lead = s.lead := rfl
@[simp] theorem State.emptySlot_slots (t : Fin 32) : (s.emptySlot t).slots = s.slots.set t .empty := rfl
@[simp] theorem State.emptySlot_playbacks (t : Fin 32) : (s.emptySlot t).playbacks = s.playbacks := rfl
@[simp] theorem State.emptySlot_channels (t : Fin 32) : (s.emptySlot t).channels = s.channels := rfl
@[simp] theorem State.emptySlot_runList (t : Fin 32) : (s.emptySlot t).runList = s.runList := rfl
@[simp] theorem State.emptySlot_births (t : Fin 32) : (s.emptySlot t).births = s.births := rfl
@[simp] theorem State.emptySlot_banks (t : Fin 32) : (s.emptySlot t).banks = s.banks := rfl
@[simp] theorem State.emptySlot_liveBank (t : Fin 32) : (s.emptySlot t).liveBank = s.liveBank := rfl
@[simp] theorem State.emptySlot_liveMap (t : Fin 32) : (s.emptySlot t).liveMap = s.liveMap := rfl
@[simp] theorem State.emptySlot_rebuild (t : Fin 32) : (s.emptySlot t).rebuild = s.rebuild := rfl
@[simp] theorem State.emptySlot_rig (t : Fin 32) : (s.emptySlot t).rig = s.rig := rfl
@[simp] theorem State.emptySlot_lawFaults (t : Fin 32) : (s.emptySlot t).lawFaults = s.lawFaults := rfl
@[simp] theorem State.emptySlot_parks (t : Fin 32) : (s.emptySlot t).parks = s.parks := rfl
@[simp] theorem State.emptySlot_stage (t : Fin 32) : (s.emptySlot t).stage = s.stage := rfl
@[simp] theorem State.emptySlot_deskRaised (t : Fin 32) : (s.emptySlot t).deskRaised = s.deskRaised := rfl
@[simp] theorem State.emptySlot_grand (t : Fin 32) : (s.emptySlot t).grand = s.grand := rfl
@[simp] theorem State.emptySlot_blackout (t : Fin 32) : (s.emptySlot t).blackout = s.blackout := rfl
@[simp] theorem State.emptySlot_racks (t : Fin 32) : (s.emptySlot t).racks = s.racks := rfl
@[simp] theorem State.emptySlot_storedBanks (t : Fin 32) : (s.emptySlot t).storedBanks = s.storedBanks := rfl
@[simp] theorem State.emptySlot_storedRig (t : Fin 32) : (s.emptySlot t).storedRig = s.storedRig := rfl
@[simp] theorem State.emptySlot_saving (t : Fin 32) : (s.emptySlot t).saving = s.saving := rfl
@[simp] theorem State.emptySlot_pending (t : Fin 32) : (s.emptySlot t).pending = s.pending := rfl

/-! ### `State.startFill` -/

@[simp] theorem State.startFill_power (d : Desk) (t : Fin 32) (h : CueHeader) : (s.startFill d t h).power = s.power := rfl
@[simp] theorem State.startFill_lead (d : Desk) (t : Fin 32) (h : CueHeader) : (s.startFill d t h).lead = s.lead := rfl
@[simp] theorem State.startFill_slots (d : Desk) (t : Fin 32) (h : CueHeader) : (s.startFill d t h).slots = s.slots.set t (.filling h [] d) := rfl
@[simp] theorem State.startFill_playbacks (d : Desk) (t : Fin 32) (h : CueHeader) : (s.startFill d t h).playbacks = s.playbacks := rfl
@[simp] theorem State.startFill_channels (d : Desk) (t : Fin 32) (h : CueHeader) : (s.startFill d t h).channels = s.channels := rfl
@[simp] theorem State.startFill_runList (d : Desk) (t : Fin 32) (h : CueHeader) : (s.startFill d t h).runList = s.runList := rfl
@[simp] theorem State.startFill_births (d : Desk) (t : Fin 32) (h : CueHeader) : (s.startFill d t h).births = s.births := rfl
@[simp] theorem State.startFill_banks (d : Desk) (t : Fin 32) (h : CueHeader) : (s.startFill d t h).banks = s.banks := rfl
@[simp] theorem State.startFill_liveBank (d : Desk) (t : Fin 32) (h : CueHeader) : (s.startFill d t h).liveBank = s.liveBank := rfl
@[simp] theorem State.startFill_liveMap (d : Desk) (t : Fin 32) (h : CueHeader) : (s.startFill d t h).liveMap = s.liveMap := rfl
@[simp] theorem State.startFill_rebuild (d : Desk) (t : Fin 32) (h : CueHeader) : (s.startFill d t h).rebuild = s.rebuild := rfl
@[simp] theorem State.startFill_rig (d : Desk) (t : Fin 32) (h : CueHeader) : (s.startFill d t h).rig = s.rig := rfl
@[simp] theorem State.startFill_lawFaults (d : Desk) (t : Fin 32) (h : CueHeader) : (s.startFill d t h).lawFaults = s.lawFaults := rfl
@[simp] theorem State.startFill_parks (d : Desk) (t : Fin 32) (h : CueHeader) : (s.startFill d t h).parks = s.parks := rfl
@[simp] theorem State.startFill_stage (d : Desk) (t : Fin 32) (h : CueHeader) : (s.startFill d t h).stage = s.stage := rfl
@[simp] theorem State.startFill_deskRaised (d : Desk) (t : Fin 32) (h : CueHeader) : (s.startFill d t h).deskRaised = s.deskRaised := rfl
@[simp] theorem State.startFill_grand (d : Desk) (t : Fin 32) (h : CueHeader) : (s.startFill d t h).grand = s.grand := rfl
@[simp] theorem State.startFill_blackout (d : Desk) (t : Fin 32) (h : CueHeader) : (s.startFill d t h).blackout = s.blackout := rfl
@[simp] theorem State.startFill_racks (d : Desk) (t : Fin 32) (h : CueHeader) : (s.startFill d t h).racks = s.racks := rfl
@[simp] theorem State.startFill_storedBanks (d : Desk) (t : Fin 32) (h : CueHeader) : (s.startFill d t h).storedBanks = s.storedBanks := rfl
@[simp] theorem State.startFill_storedRig (d : Desk) (t : Fin 32) (h : CueHeader) : (s.startFill d t h).storedRig = s.storedRig := rfl
@[simp] theorem State.startFill_saving (d : Desk) (t : Fin 32) (h : CueHeader) : (s.startFill d t h).saving = s.saving := rfl
@[simp] theorem State.startFill_pending (d : Desk) (t : Fin 32) (h : CueHeader) : (s.startFill d t h).pending = s.pending := rfl

/-! ### `State.freshFrame` -/

@[simp] theorem State.freshFrame_power (k : Fin 3) : (s.freshFrame k).power = s.power := rfl
@[simp] theorem State.freshFrame_ports (k : Fin 3) : (s.freshFrame k).ports = s.ports := rfl
@[simp] theorem State.freshFrame_lead (k : Fin 3) : (s.freshFrame k).lead = s.lead := rfl
@[simp] theorem State.freshFrame_slots (k : Fin 3) : (s.freshFrame k).slots = s.slots := rfl
@[simp] theorem State.freshFrame_playbacks (k : Fin 3) : (s.freshFrame k).playbacks = s.playbacks := rfl
@[simp] theorem State.freshFrame_channels (k : Fin 3) : (s.freshFrame k).channels = s.channels := rfl
@[simp] theorem State.freshFrame_runList (k : Fin 3) : (s.freshFrame k).runList = s.runList := rfl
@[simp] theorem State.freshFrame_births (k : Fin 3) : (s.freshFrame k).births = s.births := rfl
@[simp] theorem State.freshFrame_banks (k : Fin 3) : (s.freshFrame k).banks = s.banks := rfl
@[simp] theorem State.freshFrame_liveBank (k : Fin 3) : (s.freshFrame k).liveBank = s.liveBank := rfl
@[simp] theorem State.freshFrame_liveMap (k : Fin 3) : (s.freshFrame k).liveMap = s.liveMap := rfl
@[simp] theorem State.freshFrame_rebuild (k : Fin 3) : (s.freshFrame k).rebuild = s.rebuild := rfl
@[simp] theorem State.freshFrame_rig (k : Fin 3) : (s.freshFrame k).rig = s.rig := rfl
@[simp] theorem State.freshFrame_lawFaults (k : Fin 3) : (s.freshFrame k).lawFaults = s.lawFaults := rfl
@[simp] theorem State.freshFrame_parks (k : Fin 3) : (s.freshFrame k).parks = s.parks := rfl
@[simp] theorem State.freshFrame_stage (k : Fin 3) : (s.freshFrame k).stage = s.stage := rfl
@[simp] theorem State.freshFrame_deskRaised (k : Fin 3) : (s.freshFrame k).deskRaised = s.deskRaised := rfl
@[simp] theorem State.freshFrame_grand (k : Fin 3) : (s.freshFrame k).grand = s.grand := rfl
@[simp] theorem State.freshFrame_blackout (k : Fin 3) : (s.freshFrame k).blackout = s.blackout := rfl
@[simp] theorem State.freshFrame_storedBanks (k : Fin 3) : (s.freshFrame k).storedBanks = s.storedBanks := rfl
@[simp] theorem State.freshFrame_storedRig (k : Fin 3) : (s.freshFrame k).storedRig = s.storedRig := rfl
@[simp] theorem State.freshFrame_saving (k : Fin 3) : (s.freshFrame k).saving = s.saving := rfl
@[simp] theorem State.freshFrame_pending (k : Fin 3) : (s.freshFrame k).pending = s.pending := rfl

end Sys2Proof.Machine
end

