-- ==== Sys2Proof/Laws/Table.lean ====
section
/-! SUPPORT. Read after write for tables, and what the ways of making one give. -/

namespace Sys2Proof.Machine

variable {n : Nat} {α β : Type}

/-- Two tables that agree at every index are equal. -/
theorem Table.ext_get {t u : Table n α} (h : ∀ i, t.get i = u.get i) : t = u := by
  obtain ⟨x, hx⟩ := t
  obtain ⟨y, hy⟩ := u
  have : x = y := by
    apply List.ext_getElem (by omega)
    intro i h1 h2
    exact h ⟨i, by omega⟩
  subst this
  rfl

@[simp] theorem Table.get_set_self (t : Table n α) (i : Fin n) (a : α) : (t.set i a).get i = a := by
  simp [Table.get, Table.set]

theorem Table.get_set_ne (t : Table n α) {i j : Fin n} (a : α) (h : i ≠ j) : (t.set i a).get j = t.get j := by
  have : (i : Nat) ≠ j := fun e => h (Fin.ext e)
  simp [Table.get, Table.set, List.getElem_set_ne this]

/-- What reading any index after a write gives. -/
theorem Table.get_set (t : Table n α) (i j : Fin n) (a : α) : (t.set i a).get j = if i = j then a else t.get j := by
  split
  · next h => subst h; simp
  · next h => exact t.get_set_ne a h

@[simp] theorem Table.set_get_self (t : Table n α) (i : Fin n) : t.set i (t.get i) = t := by
  apply Table.ext_get
  intro j
  rw [Table.get_set]
  split
  · next h => rw [h]
  · rfl

@[simp] theorem Table.set_set (t : Table n α) (i : Fin n) (a b : α) : (t.set i a).set i b = t.set i b := by
  apply Table.ext_get
  intro j
  simp only [Table.get_set]
  split <;> rfl

@[simp] theorem Table.get_fill (a : α) (i : Fin n) : (Table.fill n a).get i = a := by
  simp [Table.get, Table.fill]

@[simp] theorem Table.get_tabulate (f : Fin n → α) (i : Fin n) : (Table.tabulate f).get i = f i := by
  simp [Table.get, Table.tabulate]

@[simp] theorem Table.get_map (f : α → β) (t : Table n α) (i : Fin n) : (t.map f).get i = f (t.get i) := by
  simp [Table.get, Table.map]

theorem Table.get_modify (t : Table n α) (i j : Fin n) (f : α → α) :
    (t.modify i f).get j = if i = j then f (t.get i) else t.get j := by
  simp [Table.modify, Table.get_set]

/-- The sum of a measure over a table after a write: the old cell's share leaves and the new one's joins. -/
theorem Table.sum_set (t : Table n α) (i : Fin n) (a : α) (f : α → Nat) :
    ((t.set i a).cells.map f).sum + f (t.get i) = (t.cells.map f).sum + f a := by
  obtain ⟨l, hl⟩ := t
  subst hl
  simp only [Table.set, Table.get]
  have key : ∀ (l : List α) (k : Nat) (h : k < l.length),
      ((l.set k a).map f).sum + f l[k] = (l.map f).sum + f a := by
    intro l
    induction l with
    | nil => intro k h; simp at h
    | cons x xs ih =>
      intro k h
      cases k with
      | zero => simp only [List.set_cons_zero, List.map_cons, List.sum_cons, List.getElem_cons_zero]; omega
      | succ k =>
        have := ih k (Nat.lt_of_succ_lt_succ h)
        simp only [List.set_cons_succ, List.map_cons, List.sum_cons, List.getElem_cons_succ]
        omega
  exact key l i i.isLt

theorem Table.length_cells (t : Table n α) : t.cells.length = n := t.size

end Sys2Proof.Machine
end

