-- ==== Sys2Proof/Laws/Ops.lean ====
section
/-! SUPPORT. What each shared operation of the ports does, said once: reading a port after a write, and the life of a
request row from its arrival to its answer. -/

namespace Sys2Proof.Machine

variable (s : State)

/-! ## Ports -/

theorem Ports.get_set (p : Ports) (l m : Link) (q : Port) : (p.set l q).get m = if l = m then q else p.get m := by
  cases l <;> cases m <;> rfl

@[simp] theorem Ports.get_set_self (p : Ports) (l : Link) (q : Port) : (p.set l q).get l = q := by cases l <;> rfl

@[simp] theorem Ports.set_get_self (p : Ports) (l : Link) : p.set l (p.get l) = p := by cases l <;> rfl

@[simp] theorem Ports.set_set (p : Ports) (l : Link) (q r : Port) : (p.set l q).set l r = p.set l r := by cases l <;> rfl

@[simp] theorem Ports.get_map (f : Port → Port) (p : Ports) (l : Link) : (p.map f).get l = f (p.get l) := by cases l <;> rfl

/-- Any port after one port is replaced. -/
theorem State.port_setPort (l m : Link) (q : Port) : (s.setPort l q).port m = if l = m then q else s.port m :=
  Ports.get_set s.ports l m q

@[simp] theorem State.port_setPort_self (l : Link) (q : Port) : (s.setPort l q).port l = q := Ports.get_set_self s.ports l q

/-- Any port after one port is changed. -/
theorem State.port_modPort (l m : Link) (f : Port → Port) : (s.modPort l f).port m = if l = m then f (s.port m) else s.port m := by
  unfold State.modPort
  rw [State.port_setPort]
  split
  · next h => subst h; rfl
  · rfl

@[simp] theorem State.port_modPort_self (l : Link) (f : Port → Port) : (s.modPort l f).port l = f (s.port l) :=
  State.port_setPort_self s l _

@[simp] theorem State.port_notifyAll (l : Link) (n : Notice) : (s.notifyAll n).port l = (s.port l).notify n :=
  Ports.get_map (Port.notify n) s.ports l

/-- Writing a port back as it stands changes nothing. -/
@[simp] theorem State.setPort_port (l : Link) : s.setPort l (s.port l) = s := by
  cases l <;> rfl

@[simp] theorem State.setPort_setPort (l : Link) (p q : Port) : (s.setPort l p).setPort l q = s.setPort l q := by
  cases l <;> rfl

/-! ## The life of a request -/

@[simp] theorem whileRunning_running {s t : State} (h : s.power = .running) : whileRunning s t = t := by simp [whileRunning, h]

theorem whileRunning_stopped {s t : State} (h : s.power ≠ .running) : whileRunning s t = s := by simp [whileRunning, h]

/-- A request at the head of its queue is taken (R157). -/
theorem requestRow_atHead {s : State} {l : Link} {r : Request} (decision : Role → State → Verdict) (h : AtHead s l r) :
    requestRow l r decision s = settle l (decision (s.role l) s) := by
  simp [requestRow, takeHead, h.1, h.2]

/-- A request whose link has an empty queue arrives and is taken (log 7). -/
theorem requestRow_empty {s : State} {l : Link} {r : Request} (decision : Role → State → Verdict) (h : s.power = .running)
    (hq : (s.port l).queue = []) :
    requestRow l r decision s = settle l (decision ((s.receive l r).role l) (s.receive l r)) := by
  have : (s.port l).next? ≠ some r := by
    unfold Port.next?
    split <;> simp [hq]
  simp [requestRow, takeHead, h, hq, this]

/-- A request that stands behind others arrives and waits (R157, log 7). -/
theorem requestRow_waiting {s : State} {l : Link} {r : Request} (decision : Role → State → Verdict) (h : s.power = .running)
    (hn : (s.port l).next? ≠ some r) (hq : (s.port l).queue ≠ []) : requestRow l r decision s = s.receive l r := by
  simp [requestRow, h, hn, hq]

/-- Everything a request row can do: nothing while the part is stopped, take its request, or let it arrive and wait. -/
theorem requestRow_cases (l : Link) (r : Request) (decision : Role → State → Verdict) :
    (s.power ≠ .running ∧ requestRow l r decision s = s) ∨
    (AtHead s l r ∧ requestRow l r decision s = settle l (decision (s.role l) s)) ∨
    (s.power = .running ∧ (s.port l).queue = [] ∧
      requestRow l r decision s = settle l (decision ((s.receive l r).role l) (s.receive l r))) ∨
    (s.power = .running ∧ (s.port l).queue ≠ [] ∧ requestRow l r decision s = s.receive l r) := by
  by_cases h : s.power = .running
  · by_cases hn : (s.port l).next? = some r
    · exact .inr (.inl ⟨⟨h, hn⟩, requestRow_atHead decision ⟨h, hn⟩⟩)
    · by_cases hq : (s.port l).queue = []
      · exact .inr (.inr (.inl ⟨h, hq, requestRow_empty decision h hq⟩))
      · exact .inr (.inr (.inr ⟨h, hq, requestRow_waiting decision h hn hq⟩))
  · exact .inl ⟨h, by simp [requestRow, whileRunning, h]⟩

/-- The first check of a list that holds gives the answer; with none, the request is taken. -/
theorem refuseFirst_cons (b : Bool) (c : ResultCode) (rest : List (Bool × ResultCode)) (taken : Verdict) :
    refuseFirst ((b, c) :: rest) s taken = if b then answer c s else refuseFirst rest s taken := by
  cases b <;> simp [refuseFirst]

@[simp] theorem refuseFirst_nil (taken : Verdict) : refuseFirst [] s taken = taken := rfl

@[simp] theorem settle_answer (l : Link) (code : ResultCode) : settle l (answer code s) = s.answered l code := rfl

/-- The one port an answer changes: its head is the reply being sent. -/
theorem State.port_answerHead (l m : Link) (code : ResultCode) (body : List Byte) (carried : Notices) :
    (s.answerHead l code body carried).port m =
      if l = m then (match (s.port m).queue with
        | [] => s.port m
        | r :: _ => { s.port m with head := .replying ⟨replyKind r.kind, r.tag, code, body⟩ carried })
      else s.port m := by
  unfold State.answerHead
  exact State.port_modPort s l m _

/-- The port on which a valid telegram arrives (R156). -/
theorem State.port_arrive (l m : Link) (r : Request) :
    (s.arrive l r).port m =
      if l = m then
        { s.port m with
          state := .live, monitor := some (s.limitMs l)
          queue := if (s.port m).queue.length < Config.queueDepth then (s.port m).queue ++ [r] else (s.port m).queue
          notices := if (s.port m).queue.length < Config.queueDepth then (s.port m).notices
            else (s.port m).notices.add .overrun }
      else s.port m := by
  unfold State.arrive
  rw [State.port_modPort]
  split
  · dsimp only
    split <;> rfl
  · rfl

/-- The head of a queue holding one request that is still to be taken. -/
theorem Port.next?_eq_some {p : Port} {r : Request} (h : p.next? = some r) : p.head = .untaken ∧ ∃ rest, p.queue = r :: rest := by
  unfold Port.next? at h
  split at h
  · next hh =>
    cases hq : p.queue with
    | nil => simp [hq] at h
    | cons x rest => simp [hq] at h; exact ⟨hh, rest, by rw [h]⟩
  · cases h

end Sys2Proof.Machine
end

