-- ==== Sys2Proof/Laws/Engine.lean ====
section
/-! SUPPORT. What each shared operation of the fade engine can do, said once: which parts of the state it touches, and the cases it
ends in. Every lemma that gives `{ s with … }` says that all other parts stand. -/

namespace Sys2Proof.Machine

variable (s : State)

/-! ## Reading parts after writes -/

theorem State.playback_setPlayback (p q : Fin 4) (x : Playback) :
    (s.setPlayback p x).playback q = if p = q then x else s.playback q := Table.get_set _ _ _ _

theorem State.playback_modPlayback (p q : Fin 4) (f : Playback → Playback) :
    (s.modPlayback p f).playback q = if p = q then f (s.playback p) else s.playback q := Table.get_set _ _ _ _

theorem State.slot_setSlot (t u : Fin 32) (x : Slot) : (s.setSlot t x).slot u = if t = u then x else s.slot u :=
  Table.get_set _ _ _ _

theorem State.channel_setChannel (p q : Fin 4) (c d : Fin 512) (r : ChannelRecord) :
    (s.setChannel p c r).channel q d = if p = q ∧ c = d then r else s.channel q d := by
  show ((s.channels.set p ((s.channels.get p).set c r)).get q).get d = _
  rw [Table.get_set]
  by_cases hp : p = q
  · subst hp
    by_cases hc : c = d
    · subst hc; simp
    · simp [hc, Table.get_set_ne, State.channel]
  · simp [hp, State.channel]

/-- Writing a slot back as it stands changes nothing. -/
@[simp] theorem State.setSlot_slot (t : Fin 32) : s.setSlot t (s.slot t) = s := by
  simp [State.setSlot, State.slot]

/-! ## Fade arithmetic -/

/-- The three stages of an owned record's life at a clock value. -/
theorem evalOwned_cases (o : Ownership) (e : Nat) :
    (e < o.delay ∧ evalOwned o e = ⟨o.start, some { o with phase := .waiting }⟩) ∨
    (o.delay ≤ e ∧ e < o.delay + o.time ∧ evalOwned o e = ⟨fadeLevel o e, some { o with phase := .fading }⟩) ∨
    (o.delay + o.time ≤ e ∧ evalOwned o e = ⟨o.target, none⟩) := by
  unfold evalOwned
  split
  · exact .inl ⟨‹_›, rfl⟩
  · split
    · exact .inr (.inl ⟨by omega, ‹_›, rfl⟩)
    · exact .inr (.inr ⟨by omega, rfl⟩)

/-- Before its time is over a fade has moved by less than the whole way. -/
theorem fadeStep_lt {d x t : Nat} (hx : x < t) (hd : 0 < d) : d * x / t < d :=
  Nat.div_lt_of_lt_mul (by rw [Nat.mul_comm t d]; exact Nat.mul_lt_mul_of_pos_left hx hd)

/-- Who owns a record after its entry has been evaluated: the same owner, or none. -/
theorem ownedBy_evalRecord (n m : Fin 16) (e : Nat) (r : ChannelRecord) :
    ownedBy m (evalRecord n e r) = (ownedBy m r && !(decide (m = n) && completesAt n e r)) := by
  obtain ⟨level, own⟩ := r
  cases own with
  | none => simp [evalRecord, ownedBy]
  | some o =>
    by_cases ho : o.owner = n
    · obtain ⟨h, e1⟩ | ⟨h, h', e1⟩ | ⟨h, e1⟩ := evalOwned_cases o e <;>
        by_cases hm : m = n <;> simp [evalRecord, ownedBy, completesAt, ho, e1, hm, eq_comm (a := n)] <;> omega
    · by_cases hm : m = n <;> simp [evalRecord, ownedBy, completesAt, ho, hm]

/-! ## Run entries -/

theorem State.entry?_eq_some {n : Fin 16} {e : RunEntry} (h : s.entry? n = some e) : e ∈ s.runList ∧ e.number = n :=
  ⟨List.mem_of_find?_eq_some h, by simpa using List.find?_some h⟩

theorem State.born?_eq_some {b : Nat} {e : RunEntry} (h : s.born? b = some e) : e ∈ s.runList ∧ e.birth = b :=
  ⟨List.mem_of_find?_eq_some h, by simpa using List.find?_some h⟩

/-- An entry leaving touches the run list and, for a CUE entry, its own slot. -/
theorem State.removeEntry_eq (e : RunEntry) :
    s.removeEntry e = { s with
      runList := s.runList.filter fun x => x.number ≠ e.number
      slots := match e.kind with
        | .cue t _ _ => s.slots.set t (s.slot t).toReady
        | _ => s.slots } := by
  obtain ⟨_, _, kind, _, _, _, _⟩ := e
  cases kind <;> rfl

/-- The test for removal removes the entry or leaves everything. -/
theorem State.testLeave_cases (firing : List Nat) (n : Fin 16) :
    s.testLeave firing n = s ∨
      ∃ e, s.entry? n = some e ∧ e.done firing = true ∧ s.testLeave firing n = s.removeEntry e := by
  unfold State.testLeave
  split
  · next e h =>
    split
    · exact .inr ⟨e, h, ‹_›, rfl⟩
    · exact .inl rfl
  · exact .inl rfl

/-- The test for removal, by birth, removes the entry or leaves everything. -/
theorem State.testLeaveBorn_cases (firing : List Nat) (b : Nat) :
    s.testLeaveBorn firing b = s ∨
      ∃ e, s.born? b = some e ∧ e.done firing = true ∧ s.testLeaveBorn firing b = s.removeEntry e := by
  unfold State.testLeaveBorn
  split
  · next e h =>
    split
    · exact .inr ⟨e, h, ‹_›, rfl⟩
    · exact .inl rfl
  · exact .inl rfl

/-- The parts of the state that the life of run entries can touch. -/
def SameBeside (s t : State) : Prop :=
  t = { s with ports := t.ports, slots := t.slots, playbacks := t.playbacks, channels := t.channels, runList := t.runList,
               births := t.births } ∧
    ∀ l, t.port l = { s.port l with notices := (t.port l).notices }

theorem SameBeside.refl : SameBeside s s := ⟨rfl, fun _ => rfl⟩

theorem SameBeside.trans {s t u : State} (h : SameBeside s t) (k : SameBeside t u) : SameBeside s u := by
  refine ⟨?_, fun l => ?_⟩
  · rw [k.1, h.1]
  · rw [k.2 l, h.2 l]

/-- A state that differs in those parts only. -/
theorem SameBeside.of_eq {t : State} (ps : Table 4 Playback) (ss : Table 32 Slot) (cs : Table 4 (Table 512 ChannelRecord))
    (rl : List RunEntry) (b : Nat)
    (h : t = { s with playbacks := ps, slots := ss, channels := cs, runList := rl, births := b }) : SameBeside s t := by
  subst h; exact ⟨rfl, fun _ => rfl⟩

theorem State.removeEntry_beside (e : RunEntry) : SameBeside s (s.removeEntry e) :=
  SameBeside.of_eq s _ _ _ _ _ (s.removeEntry_eq e)

theorem State.testLeave_beside (firing : List Nat) (n : Fin 16) : SameBeside s (s.testLeave firing n) := by
  obtain h | ⟨e, -, -, h⟩ := s.testLeave_cases firing n <;> rw [h]
  · exact .refl s
  · exact s.removeEntry_beside e

theorem State.testLeaveBorn_beside (firing : List Nat) (b : Nat) : SameBeside s (s.testLeaveBorn firing b) := by
  obtain h | ⟨e, -, -, h⟩ := s.testLeaveBorn_cases firing b <;> rw [h]
  · exact .refl s
  · exact s.removeEntry_beside e

theorem State.modEntry_beside (n : Fin 16) (f : RunEntry → RunEntry) : SameBeside s (s.modEntry n f) :=
  SameBeside.of_eq s _ _ _ _ _ rfl

theorem State.modPlayback_beside (p : Fin 4) (f : Playback → Playback) : SameBeside s (s.modPlayback p f) :=
  SameBeside.of_eq s _ _ _ _ _ rfl

theorem State.setSlot_beside (t : Fin 32) (x : Slot) : SameBeside s (s.setSlot t x) := SameBeside.of_eq s _ _ _ _ _ rfl

theorem State.notifyDesks_beside (n : Notice) : SameBeside s (s.notifyDesks n) := ⟨rfl, fun l => by cases l <;> rfl⟩

theorem State.notifyAll_beside (n : Notice) : SameBeside s (s.notifyAll n) := ⟨rfl, fun l => by cases l <;> rfl⟩

/-! ## Takeover, evaluation, starts -/

theorem State.release_beside (firing : List Nat) (r : ChannelRecord) : SameBeside s (s.release firing r) := by
  unfold State.release
  split
  · exact (s.modEntry_beside _ _).trans (State.testLeave_beside _ _ _)
  · exact .refl s

theorem State.takeover_beside (firing : List Nat) (n : Fin 16) (p : Fin 4) (k : Take) :
    SameBeside s (s.takeover firing n p k) :=
  ((s.release_beside firing _).trans (State.modEntry_beside _ _ _)).trans (SameBeside.of_eq _ _ _ _ _ _ rfl)

theorem State.evaluate_beside (firing : List Nat) (n : Fin 16) : SameBeside s (s.evaluate firing n) := by
  unfold State.evaluate
  split
  · exact .refl s
  · next e h =>
    have h1 : SameBeside s (State.modEntry
        { s with channels := s.channels.set e.playback ((s.channels.get e.playback).map (evalRecord n e.clock)) } n
        fun x => { x with owned := x.owned - (s.channels.get e.playback).count (completesAt n e.clock) }) :=
      SameBeside.of_eq s _ _ _ _ _ rfl
    dsimp only
    split
    · exact h1
    · exact h1.trans (State.testLeave_beside _ _ _)

theorem State.forceComplete_beside (e : RunEntry) : SameBeside s (s.forceComplete e) := by
  have h1 : SameBeside s { s with channels := s.channels.modify e.playback (Table.map (forceRecord e.number)) } :=
    SameBeside.of_eq s _ _ _ _ _ rfl
  exact (h1.trans (State.removeEntry_beside _ e)).trans (State.notifyAll_beside _ _)

theorem State.makeRoom_beside : SameBeside s s.makeRoom := by
  unfold State.makeRoom
  split
  · split
    · exact s.forceComplete_beside _
    · exact .refl s
  · exact .refl s

theorem State.takeovers_beside (firing : List Nat) (n : Fin 16) (p : Fin 4) (takes : List Take) :
    SameBeside s (takes.foldl (fun s k => s.takeover firing n p k) s) := by
  induction takes generalizing s with
  | nil => exact .refl s
  | cons k ks ih => exact (s.takeover_beside firing n p k).trans (ih _)

theorem State.createEntry_beside (kind : EntryKind) (p : Fin 4) (who : StartedBy) : SameBeside s (s.createEntry kind p who) :=
  SameBeside.of_eq s _ _ _ _ _ rfl

theorem State.start_beside (firing : List Nat) (kind : EntryKind) (p : Fin 4) (who : StartedBy) (takes : List Take) :
    SameBeside s (s.start firing kind p who takes) :=
  ((s.makeRoom_beside.trans (State.createEntry_beside _ kind p who)).trans
    (State.takeovers_beside _ firing _ p takes)).trans (State.evaluate_beside _ firing _)

theorem State.push_beside (p : Fin 4) (ms : List Move) : SameBeside s (s.push p ms) := by
  unfold State.push
  dsimp only
  split
  · exact s.modPlayback_beside _ _
  · exact (s.modPlayback_beside _ _).trans (State.notifyDesks_beside _ _)

theorem State.beginCue_beside (firing : List Nat) (p : Fin 4) (t : Fin 32) (h : CueHeader) (ms : List Move) (who : StartedBy) :
    SameBeside s (s.beginCue firing p t h ms who) :=
  ((((s.modPlayback_beside p _).trans (State.push_beside _ p ms)).trans (State.setSlot_beside _ t _)).trans
    (State.modPlayback_beside _ p _)).trans (State.start_beside _ firing _ p who _)

theorem State.lapse_beside (firing : List Nat) (b : Nat) : SameBeside s (s.lapse firing b) :=
  (s.notifyDesks_beside _).trans (State.testLeaveBorn_beside _ _ _)

theorem State.testFollow_beside (fuel : Nat) (chain : List (Fin 32)) (firing : List Nat) (b : Nat) :
    SameBeside s (State.testFollow fuel chain firing b s) := by
  induction fuel generalizing s chain firing b with
  | zero =>
    unfold State.testFollow
    split
    · exact .refl s
    · split
      · exact s.testLeaveBorn_beside _ _
      · exact (s.modEntry_beside _ _).trans (State.lapse_beside _ _ _)
  | succ fuel ih =>
    unfold State.testFollow
    split
    · exact .refl s
    · split
      · exact s.testLeaveBorn_beside _ _
      · dsimp only
        split
        · next fuel' h ms hf hs =>
          obtain rfl : fuel = fuel' := Nat.succ.inj hf
          split
          · exact (s.modEntry_beside _ _).trans (State.lapse_beside _ _ _)
          · exact (((s.modEntry_beside _ _).trans (State.beginCue_beside _ _ _ _ _ _ _)).trans (ih _ _ _ _)).trans
              (State.testLeaveBorn_beside _ _ _)
        · exact (s.modEntry_beside _ _).trans (State.lapse_beside _ _ _)

/-- A fade tick touches nothing outside the engine, the slots and the notice sets. -/
theorem State.tick_beside : SameBeside s s.tick := by
  unfold State.tick
  generalize s.runList.map (·.birth) = bs
  induction bs generalizing s with
  | nil => exact .refl s
  | cons b bs ih =>
    refine SameBeside.trans ?_ (ih _)
    unfold State.visit
    split
    · exact .refl s
    · split
      · exact ((s.modEntry_beside _ _).trans (State.evaluate_beside _ _ _)).trans (State.testFollow_beside _ _ _ _ _)
      · exact .refl s

/-! ## Playbacks through a start -/

/-- No start, takeover or evaluation writes a playback record. -/
theorem State.playbacks_testLeave (firing : List Nat) (n : Fin 16) : (s.testLeave firing n).playbacks = s.playbacks := by
  obtain h | ⟨e, -, -, h⟩ := s.testLeave_cases firing n <;> rw [h]
  rw [s.removeEntry_eq]

theorem State.playbacks_takeover (firing : List Nat) (n : Fin 16) (p : Fin 4) (k : Take) :
    (s.takeover firing n p k).playbacks = s.playbacks := by
  show (State.release s firing _).playbacks = _
  unfold State.release
  split
  · exact State.playbacks_testLeave _ _ _
  · rfl

theorem State.playbacks_evaluate (firing : List Nat) (n : Fin 16) : (s.evaluate firing n).playbacks = s.playbacks := by
  unfold State.evaluate
  split
  · rfl
  · dsimp only
    split
    · rfl
    · exact State.playbacks_testLeave _ _ _

theorem State.playbacks_makeRoom : s.makeRoom.playbacks = s.playbacks := by
  unfold State.makeRoom
  split
  · split
    · unfold State.forceComplete
      show (State.removeEntry _ _).playbacks = _
      rw [State.removeEntry_eq]
    · rfl
  · rfl

theorem State.playbacks_start (firing : List Nat) (kind : EntryKind) (p : Fin 4) (who : StartedBy) (takes : List Take) :
    (s.start firing kind p who takes).playbacks = s.playbacks := by
  unfold State.start
  rw [State.playbacks_evaluate]
  have : ∀ (u : State) (n : Fin 16), (takes.foldl (fun s k => s.takeover firing n p k) u).playbacks = u.playbacks := by
    intro u n
    induction takes generalizing u with
    | nil => rfl
    | cons k ks ih => rw [List.foldl_cons, ih, State.playbacks_takeover]
  rw [this]
  exact s.playbacks_makeRoom

/-! ## Levels -/

/-- The highest of a list bounds each of its members and is one of them, or 0. -/
theorem highest_spec (l : List Nat) : (∀ v ∈ l, v ≤ highest l) ∧ (highest l = 0 ∨ highest l ∈ l) := by
  have key : ∀ (l : List Nat) (a : Nat), (a ≤ l.foldl max a ∧ ∀ v ∈ l, v ≤ l.foldl max a) ∧ (l.foldl max a = a ∨ l.foldl max a ∈ l) := by
    intro l
    induction l with
    | nil => intro a; simp
    | cons x xs ih =>
      intro a
      obtain ⟨⟨h1, h2⟩, h3⟩ := ih (max a x)
      refine ⟨⟨by simp only [List.foldl_cons]; omega, ?_⟩, ?_⟩
      · intro v hv
        rcases List.mem_cons.1 hv with rfl | hv
        · simp only [List.foldl_cons]; omega
        · exact h2 v hv
      · simp only [List.foldl_cons]
        rcases h3 with h3 | h3
        · rw [h3]
          rcases Nat.le_total a x with h | h
          · right; rw [Nat.max_eq_right h]; exact List.mem_cons_self
          · left; exact Nat.max_eq_left h
        · right; exact List.mem_cons_of_mem _ h3
  exact ⟨(key l 0).1.2, (key l 0).2⟩

end Sys2Proof.Machine
end

