-- ==== Sys2Proof/Laws/Operands.lean ====
section
/-! SUPPORT. What reading and writing the fields of a telegram gives: byte pairs there and back, numbered and indexed items, the count
bytes of the list bodies, and the counts of a table. -/

namespace Sys2Proof.Machine

/-! ## Numbers -/

theorem numbered_eq_some {n k : Nat} {i : Fin n} : numbered n k = some i ↔ k = i.val + 1 := by
  unfold numbered
  split
  · rw [Option.some.injEq, Fin.ext_iff]
    show k - 1 = i.val ↔ _
    omega
  · constructor
    · intro h; cases h
    · intro h; have := i.isLt; omega

theorem numbered_eq_none {n k : Nat} : numbered n k = none ↔ k = 0 ∨ n < k := by
  unfold numbered
  split <;> simp <;> omega

theorem indexed_eq_some {n k : Nat} {i : Fin n} : indexed n k = some i ↔ k = i.val := by
  unfold indexed
  split
  · rw [Option.some.injEq, Fin.ext_iff]
  · constructor
    · intro h; cases h
    · intro h; have := i.isLt; omega

theorem indexed_eq_none {n k : Nat} : indexed n k = none ↔ n ≤ k := by
  unfold indexed
  split <;> simp <;> omega

/-! ## Bytes -/

@[simp] theorem byteOf_toNat (n : Nat) : (byteOf n).toNat = n % 256 := by simp [byteOf]

/-- A number written as a two-byte field reads as itself. -/
theorem be16_bytes16 {n : Nat} (h : n < 65536) : be16 (byteOf (n / 256)) (byteOf n) = n := by
  simp only [be16, byteOf_toNat]
  omega

theorem be16_lt (a b : Byte) : be16 a b < 65536 := by
  have := a.isLt; have := b.isLt
  unfold be16
  omega

@[simp] theorem bytes16_length (n : Nat) : (bytes16 n).length = 2 := rfl

/-- The pairs of a list of pairs written out. -/
theorem wordPairs_flatMap (ps : List (Nat × Nat)) (h : ∀ x ∈ ps, x.1 < 65536 ∧ x.2 < 65536) :
    wordPairs (ps.flatMap fun x => bytes16 x.1 ++ bytes16 x.2) = ps := by
  induction ps with
  | nil => rfl
  | cons x xs ih =>
    have hx := h x List.mem_cons_self
    show (be16 _ _, be16 _ _) :: wordPairs _ = _
    rw [be16_bytes16 hx.1, be16_bytes16 hx.2]
    exact congrArg _ (ih fun y hy => h y (List.mem_cons_of_mem _ hy))

/-! ## Counts of a table -/

theorem Table.count_map {n : Nat} {α β : Type} (f : α → β) (t : Table n α) (p : β → Bool) :
    (t.map f).count p = t.count fun a => p (f a) := by
  simp only [Table.count, Table.map, List.filter_map, List.length_map]
  rfl

theorem Table.count_fill {α : Type} (n : Nat) (a : α) (p : α → Bool) :
    (Table.fill n a).count p = if p a = true then n else 0 := by
  show ((List.replicate n a).filter p).length = _
  rw [List.filter_replicate]
  split <;> simp

/-- A count after one cell is written: the old cell's share leaves and the new one's joins. -/
theorem Table.count_set {n : Nat} {α : Type} (t : Table n α) (i : Fin n) (a : α) (p : α → Bool) :
    (t.set i a).count p + (if p (t.get i) then 1 else 0) = t.count p + if p a then 1 else 0 := by
  have h : ∀ u : Table n α, u.count p = (u.cells.map fun x => if p x then 1 else 0).sum := by
    intro u
    unfold Table.count
    induction u.cells with
    | nil => rfl
    | cons x xs ih => by_cases hx : p x <;> (simp [hx, ih]; try omega)
  rw [h, h]
  exact Table.sum_set t i a _

/-! ## Monitors and timed answers -/

/-- Every LIVE link's monitor restarts at its own limit; a SILENT link's stays stopped. -/
theorem State.port_restartMonitors (s : State) (l : Link) :
    s.restartMonitors.port l =
      if (s.port l).state = .live then { s.port l with monitor := some (s.limit l * 100) } else s.port l := by
  cases l <;> rfl

end Sys2Proof.Machine
end

