-- ==== Sys2Proof/Laws/PerInstr.lean ====
section
/-! SUPPORT. The family `RequestKind`: a well-formed request row is the row of the request it stands for, so that a pending request
and the row that takes it name each other. One lemma per constructor of `Instr`. -/

namespace Sys2Proof.Laws.RequestKind

/-- The row of the request that `i` stands for is `i` itself; an event row stands for no request. -/
def Statement (i : Instr) : Prop :=
  WellFormed i = true → ∀ l r, i.request? = some (l, r) → rowOf l r = i

theorem validTelegram (link : Link) (kind : Byte) (tag : Byte) (body : List Byte) : Statement (.validTelegram link kind tag body) := by
  intro _ _ _ h
  cases h

theorem badTelegram (link : Link) : Statement (.badTelegram link) := by
  intro _ _ _ h
  cases h

theorem interByteGap (link : Link) : Statement (.interByteGap link) := by
  intro _ _ _ h
  cases h

theorem replySent (link : Link) : Statement (.replySent link) := by
  intro _ _ _ h
  cases h

theorem unknownKind (link : Link) (kind : Byte) (tag : Byte) (body : List Byte) : Statement (.unknownKind link kind tag body) := by
  intro hw l r h
  cases h
  have hk : knownKind kind = false := by
    simp only [WellFormed, Bool.and_eq_true, Bool.not_eq_true'] at hw
    exact hw.2
  simp only [knownKind, List.contains_eq_mem, List.mem_cons, List.not_mem_nil, or_false, decide_eq_false_iff_not, not_or] at hk
  simp only [rowOf, hk, if_false]

theorem status (link : Link) (tag : Byte) (body : List Byte) : Statement (.status link tag body) := by
  intro _ _ _ h
  cases h
  rfl

theorem read (link : Link) (tag : Byte) (body : List Byte) : Statement (.read link tag body) := by
  intro _ _ _ h
  cases h
  rfl

theorem takeLead (link : Link) (tag : Byte) (body : List Byte) : Statement (.takeLead link tag body) := by
  intro _ _ _ h
  cases h
  rfl

theorem yieldLead (link : Link) (tag : Byte) (body : List Byte) : Statement (.yieldLead link tag body) := by
  intro _ _ _ h
  cases h
  rfl

theorem linkSetup (link : Link) (tag : Byte) (body : List Byte) : Statement (.linkSetup link tag body) := by
  intro _ _ _ h
  cases h
  rfl

theorem cueOpen (link : Link) (tag : Byte) (body : List Byte) : Statement (.cueOpen link tag body) := by
  intro _ _ _ h
  cases h
  rfl

theorem cueMoves (link : Link) (tag : Byte) (body : List Byte) : Statement (.cueMoves link tag body) := by
  intro _ _ _ h
  cases h
  rfl

theorem cueClose (link : Link) (tag : Byte) (body : List Byte) : Statement (.cueClose link tag body) := by
  intro _ _ _ h
  cases h
  rfl

theorem cueDrop (link : Link) (tag : Byte) (body : List Byte) : Statement (.cueDrop link tag body) := by
  intro _ _ _ h
  cases h
  rfl

theorem go (link : Link) (tag : Byte) (body : List Byte) : Statement (.go link tag body) := by
  intro _ _ _ h
  cases h
  rfl

theorem back (link : Link) (tag : Byte) (body : List Byte) : Statement (.back link tag body) := by
  intro _ _ _ h
  cases h
  rfl

theorem manual (link : Link) (tag : Byte) (body : List Byte) : Statement (.manual link tag body) := by
  intro _ _ _ h
  cases h
  rfl

theorem release (link : Link) (tag : Byte) (body : List Byte) : Statement (.release link tag body) := by
  intro _ _ _ h
  cases h
  rfl

theorem hold (link : Link) (tag : Byte) (body : List Byte) : Statement (.hold link tag body) := by
  intro _ _ _ h
  cases h
  rfl

theorem resume (link : Link) (tag : Byte) (body : List Byte) : Statement (.resume link tag body) := by
  intro _ _ _ h
  cases h
  rfl

theorem rate (link : Link) (tag : Byte) (body : List Byte) : Statement (.rate link tag body) := by
  intro _ _ _ h
  cases h
  rfl

theorem pbLevel (link : Link) (tag : Byte) (body : List Byte) : Statement (.pbLevel link tag body) := by
  intro _ _ _ h
  cases h
  rfl

theorem playbackSetup (link : Link) (tag : Byte) (body : List Byte) : Statement (.playbackSetup link tag body) := by
  intro _ _ _ h
  cases h
  rfl

theorem fadeTick : Statement .fadeTick := by
  intro _ _ _ h
  cases h

theorem followDue (entry : Fin 16) : Statement (.followDue entry) := by
  intro _ _ _ h
  cases h

theorem echoTimerExpiry (playback : Fin 4) : Statement (.echoTimerExpiry playback) := by
  intro _ _ _ h
  cases h

theorem patchSet (link : Link) (tag : Byte) (body : List Byte) : Statement (.patchSet link tag body) := by
  intro _ _ _ h
  cases h
  rfl

theorem bankClear (link : Link) (tag : Byte) (body : List Byte) : Statement (.bankClear link tag body) := by
  intro _ _ _ h
  cases h
  rfl

theorem bankCopy (link : Link) (tag : Byte) (body : List Byte) : Statement (.bankCopy link tag body) := by
  intro _ _ _ h
  cases h
  rfl

theorem bankSelect (link : Link) (tag : Byte) (body : List Byte) : Statement (.bankSelect link tag body) := by
  intro _ _ _ h
  cases h
  rfl

theorem rebuildEnd : Statement .rebuildEnd := by
  intro _ _ _ h
  cases h

theorem startBank (link : Link) (tag : Byte) (body : List Byte) : Statement (.startBank link tag body) := by
  intro _ _ _ h
  cases h
  rfl

theorem profileSet (link : Link) (tag : Byte) (body : List Byte) : Statement (.profileSet link tag body) := by
  intro _ _ _ h
  cases h
  rfl

theorem lawLoad (link : Link) (tag : Byte) (body : List Byte) : Statement (.lawLoad link tag body) := by
  intro _ _ _ h
  cases h
  rfl

theorem park (link : Link) (tag : Byte) (body : List Byte) : Statement (.park link tag body) := by
  intro _ _ _ h
  cases h
  rfl

theorem flash (link : Link) (tag : Byte) (body : List Byte) : Statement (.flash link tag body) := by
  intro _ _ _ h
  cases h
  rfl

theorem nudge (link : Link) (tag : Byte) (body : List Byte) : Statement (.nudge link tag body) := by
  intro _ _ _ h
  cases h
  rfl

theorem unpark (link : Link) (tag : Byte) (body : List Byte) : Statement (.unpark link tag body) := by
  intro _ _ _ h
  cases h
  rfl

theorem flashTimerExpiry (circuit : Fin 768) : Statement (.flashTimerExpiry circuit) := by
  intro _ _ _ h
  cases h

theorem lineInputChange (line : Fin 4) (level : LineLevel) : Statement (.lineInputChange line level) := by
  intro _ _ _ h
  cases h

theorem debounceTimerExpiry (line : Fin 4) : Statement (.debounceTimerExpiry line) := by
  intro _ _ _ h
  cases h

theorem lineSetup (link : Link) (tag : Byte) (body : List Byte) : Statement (.lineSetup link tag body) := by
  intro _ _ _ h
  cases h
  rfl

theorem lookSet (link : Link) (tag : Byte) (body : List Byte) : Statement (.lookSet link tag body) := by
  intro _ _ _ h
  cases h
  rfl

theorem lookRaise (link : Link) (tag : Byte) (body : List Byte) : Statement (.lookRaise link tag body) := by
  intro _ _ _ h
  cases h
  rfl

theorem lookLower (link : Link) (tag : Byte) (body : List Byte) : Statement (.lookLower link tag body) := by
  intro _ _ _ h
  cases h
  rfl

theorem grand (link : Link) (tag : Byte) (body : List Byte) : Statement (.grand link tag body) := by
  intro _ _ _ h
  cases h
  rfl

theorem rackSetup (link : Link) (tag : Byte) (body : List Byte) : Statement (.rackSetup link tag body) := by
  intro _ _ _ h
  cases h
  rfl

theorem frameStart (rack : Fin 3) : Statement (.frameStart rack) := by
  intro _ _ _ h
  cases h

theorem save (link : Link) (tag : Byte) (body : List Byte) : Statement (.save link tag body) := by
  intro _ _ _ h
  cases h
  rfl

theorem saveEnd : Statement .saveEnd := by
  intro _ _ _ h
  cases h

theorem saveWriteFailure : Statement .saveWriteFailure := by
  intro _ _ _ h
  cases h

theorem silenceMonitorExpiry (link : Link) : Statement (.silenceMonitorExpiry link) := by
  intro _ _ _ h
  cases h

theorem resetAssert : Statement .resetAssert := by
  intro _ _ _ h
  cases h

theorem coldStart : Statement .coldStart := by
  intro _ _ _ h
  cases h

theorem supplyDip : Statement .supplyDip := by
  intro _ _ _ h
  cases h

theorem dipRestart : Statement .dipRestart := by
  intro _ _ _ h
  cases h

theorem linkByteReceived (link : Link) (byte : Byte) : Statement (.linkByteReceived link byte) := by
  intro _ _ _ h
  cases h

end Sys2Proof.Laws.RequestKind
end

