-- ==== Sys2Proof/Laws/Restart.lean ====
section
/-! SUPPORT. What the RESET line, a cold start's occasion and the supply's recovery do in each state of power, said once. -/

namespace Sys2Proof.Machine

variable {s : State}

theorem State.lowerReset_dipped {r : LineLevel} (h : s.power = .dipped r) : s.lowerReset = { s with power := .dipped .low } := by
  simp [State.lowerReset, h]

theorem State.lowerReset_supplied (h : ∀ r, s.power ≠ .dipped r) : s.lowerReset = s.assertReset := by
  cases hp : s.power <;> simp_all [State.lowerReset]

theorem State.startCold_release (h : s.power = .dipped .low) : s.startCold = { s with power := .dipped .high } := by
  simp [State.startCold, h]

theorem State.startCold_cold (h : s.power ≠ .dipped .low) : s.startCold = s.coldStart := by
  unfold State.startCold
  split <;> simp_all

theorem State.recover_supplied (h : ∀ r, s.power ≠ .dipped r) : s.recover = s := by
  cases hp : s.power <;> simp_all [State.recover]

theorem State.recover_resumes (h : s.power = .dipped .high) : s.recover = s.dipRestart := by simp [State.recover, h]

theorem State.recover_reset (h : s.power = .dipped .low) : s.recover = s.assertReset := by simp [State.recover, h]

end Sys2Proof.Machine
end

