-- ==== Sys2Proof/Laws/Starts.lean ====
section
/-! SUPPORT. The start of a cue in the terms of the claims: what the push leaves alone, the state a start is made in, and the three
outcomes of a follow's test. -/

namespace Sys2Proof.Machine

variable (s : State)

/-! ## The push and the hold flag -/

/-- A stack that stands in one playback stands wherever that playback's other fields go. -/
theorem State.heldPairs_setPlayback (p : Fin 4) (x : Playback) (h : x.stack = (s.playback p).stack) :
    (s.setPlayback p x).heldPairs = s.heldPairs := by
  have hm : ((s.setPlayback p x).playbacks.cells.map fun y => stackPairs y.stack) =
      s.playbacks.cells.map fun y => stackPairs y.stack := by
    show (s.playbacks.cells.set p.val x).map _ = _
    rw [List.map_set, h]
    refine List.ext_getElem (by simp) fun i h1 h2 => ?_
    rw [List.getElem_set]
    split
    · next hi => subst hi; simp [State.playback, Table.get]
    · rfl
  unfold State.heldPairs
  rw [hm]
  rfl

/-- The push reads no hold flag and keeps it. -/
theorem State.push_clearHold (p : Fin 4) (ms : List Move) :
    (s.modPlayback p fun x => { x with held := false }).push p ms =
      (s.push p ms).modPlayback p fun x => { x with held := false } := by
  have hp : (s.modPlayback p fun x => { x with held := false }).playback p = { s.playback p with held := false } :=
    Table.get_set_self _ _ _
  have hh : (s.modPlayback p fun x => { x with held := false }).heldPairs = s.heldPairs :=
    s.heldPairs_setPlayback p _ rfl
  have hc : (s.modPlayback p fun x => { x with held := false }).capture p ms = s.capture p ms := rfl
  have hr (k : Nat) : (s.modPlayback p fun x => { x with held := false }).roomyStack p k = s.roomyStack p k := by
    unfold State.roomyStack
    rw [hp, hh]
  unfold State.push
  rw [hp, hh, hc]
  dsimp only
  rw [hr]
  split <;> simp [State.modPlayback, State.setPlayback, State.playback, State.notifyDesks, State.notify, State.modPort,
    State.setPort, State.port]

/-- What the push leaves of the slots. -/
theorem State.push_slots (p : Fin 4) (ms : List Move) : (s.push p ms).slots = s.slots := by
  unfold State.push
  dsimp only
  split <;> rfl

/-! ## The start of a cue -/

/-- The steps of a taken GO or follow make the start the claims speak of. -/
theorem State.beginCue_eq (firing : List Nat) (p : Fin 4) (t : Fin 32) (h : CueHeader) (ms : List Move) (who : StartedBy)
    (hs : s.slot t = .ready h ms) : s.beginCue firing p t h ms who = s.cueStart firing p t h ms who := by
  have hw : ((s.push p ms).modPlayback p fun x => { x with held := false }).slot t = .ready h ms := by
    rw [← hs]
    show (s.push p ms).slots.get t = s.slots.get t
    rw [s.push_slots]
  unfold State.beginCue State.cueStart
  dsimp only
  rw [s.push_clearHold, hw]
  have he : (((s.push p ms).modPlayback p fun x => { x with held := false }).setSlot t (Slot.toRunning (.ready h ms))).modPlayback
      p (fun x => { (x.setEcho .cue h.cue who) with currentCue := h.cue }) = s.beforeStart p t h ms who := by
    simp [State.beforeStart, State.modPlayback, State.setPlayback, State.playback, State.setSlot, Slot.toRunning,
      Playback.setEcho, Config.echoMs]
  rw [he]
  rfl

/-! ## The test of a follow (R36, R37) -/

/-- A chain whose slots are all different, with as many starts left as slots are not in it, has a start left for any slot not in
it: no chain runs out of starts. -/
theorem chain_has_room {chain : List (Fin 32)} {t : Fin 32} {fuel : Nat} (hn : chain.Nodup) (ht : t ∉ chain)
    (hf : 32 ≤ fuel + chain.length) : fuel ≠ 0 := by
  have h : (t :: chain).length ≤ 32 := by
    simpa using List.Nodup.length_le_card (List.nodup_cons.2 ⟨ht, hn⟩)
  simp only [List.length_cons] at h
  omega

/-- The test of a follow, once for all: the entry has left; its follow is not due; it lapses; or it fires. -/
theorem State.testFollow_cases (fuel : Nat) (chain : List (Fin 32)) (firing : List Nat) (b : Nat) :
    (s.born? b = none ∧ State.testFollow fuel chain firing b s = s) ∨
    (∃ e, s.born? b = some e ∧ (∀ f, e.follow = some f → e.clock < f.due) ∧
      State.testFollow fuel chain firing b s = s.testLeaveBorn firing b) ∨
    (∃ e f, s.born? b = some e ∧ e.follow = some f ∧ f.due ≤ e.clock ∧
      ((∀ h ms, s.slot f.slot ≠ .ready h ms) ∨ f.slot ∈ chain ∨ fuel = 0) ∧
      State.testFollow fuel chain firing b s = (s.modEntry e.number RunEntry.clearFollow).lapse firing b) ∨
    (∃ e f h ms, s.born? b = some e ∧ e.follow = some f ∧ f.due ≤ e.clock ∧ s.slot f.slot = .ready h ms ∧ f.slot ∉ chain ∧
      fuel ≠ 0 ∧ State.testFollow fuel chain firing b s =
        (State.testFollow (fuel - 1) (f.slot :: chain) (b :: firing) s.births
          ((s.modEntry e.number RunEntry.clearFollow).cueStart (b :: firing) e.playback f.slot h ms .follow)).testLeaveBorn
            firing b) := by
  rcases hb : s.born? b with _ | e
  · left; exact ⟨rfl, by unfold State.testFollow; rw [hb]⟩
  right
  rcases hd : e.dueFollow with _ | t
  · left
    refine ⟨e, rfl, ?_, by unfold State.testFollow; simp only [hb, hd]⟩
    intro f hf
    simp only [RunEntry.dueFollow, hf] at hd
    split at hd
    · cases hd
    · omega
  right
  obtain ⟨f, hf, hdue, rfl⟩ : ∃ f, e.follow = some f ∧ f.due ≤ e.clock ∧ f.slot = t := by
    unfold RunEntry.dueFollow at hd
    split at hd
    · next f hf =>
      split at hd
      · exact ⟨f, hf, ‹_›, Option.some.inj hd⟩
      · cases hd
    · cases hd
  have hslot : (s.modEntry e.number RunEntry.clearFollow).slot f.slot = s.slot f.slot := rfl
  by_cases hr : ∃ h ms, s.slot f.slot = .ready h ms
  · obtain ⟨h, ms, hr⟩ := hr
    by_cases hc : f.slot ∈ chain
    · left
      refine ⟨e, f, rfl, hf, hdue, .inr (.inl hc), ?_⟩
      unfold State.testFollow
      simp only [hb, hd, hslot, hr]
      cases fuel <;> simp [hc]
    · cases fuel with
      | zero =>
        left
        refine ⟨e, f, rfl, hf, hdue, .inr (.inr rfl), ?_⟩
        unfold State.testFollow
        simp only [hb, hd]
      | succ fuel =>
        right
        refine ⟨e, f, h, ms, rfl, hf, hdue, hr, hc, by omega, ?_⟩
        rw [State.testFollow]
        simp only [hb, hd, hslot, hr, List.contains_eq_mem, hc, decide_false, Bool.false_eq_true, if_false]
        rw [State.beginCue_eq _ _ _ _ _ _ _ (hslot.trans hr)]
        rfl
  · left
    refine ⟨e, f, rfl, hf, hdue, .inl fun h ms e => hr ⟨h, ms, e⟩, ?_⟩
    unfold State.testFollow
    simp only [hb, hd, hslot]
    rcases hs : s.slot f.slot with _ | _ | ⟨h, ms⟩ | _
    · cases fuel <;> rfl
    · cases fuel <;> rfl
    · exact absurd ⟨h, ms, hs⟩ hr
    · cases fuel <;> rfl

end Sys2Proof.Machine
end

