-- ==== Sys2Proof/Tests/Slice0.lean ====
section
/-! SUPPORT. The model's own tests: ill-formed commands refused, single steps against the manual's worked cases (each test names its
source), and for every statement that has hypotheses a concrete state and operands that meet them. -/

open Sys2Proof Sys2Proof.Machine

namespace Sys2Proof.Tests

/-! One theorem is checked at a time: many kernel evaluations waiting on each other exhaust the checker's threads. -/

set_option Elab.async false

/-! ## Well-formedness -/

theorem test_longest_body_accepted : WellFormed (.validTelegram .a kindYieldLead 0 (List.replicate 1098 0)) = true := by decide +kernel

theorem test_valid_telegram_too_long_refused : WellFormed (.validTelegram .a kindYieldLead 0 (List.replicate 1099 0)) = false := by
  decide +kernel

theorem test_request_too_long_refused : WellFormed (.grand .a 0 (List.replicate 1099 0)) = false := by decide +kernel

theorem test_unknown_kind_too_long_refused : WellFormed (.unknownKind .a 0x7F 0 (List.replicate 1099 0)) = false := by
  decide +kernel

theorem test_known_kind_is_not_unknown : WellFormed (.unknownKind .a kindGo 0 []) = false := by decide

theorem test_unlisted_kind_is_unknown : WellFormed (.unknownKind .a 0x39 0 []) = true := by decide

/-! ## States to test on -/

/-- A port of a LIVE link with nothing pending. -/
def livePort : Port := ⟨.live, some 1500, .hunting, [], .untaken, {}, none⟩

/-- A part in use: A leads, every link LIVE. Slot 1 (cue 10: channel 1 up to 40000 in 2.0 s) is RUNNING on playback 1 with the
given follow pending, its clock at 10,000 and its channel half way; slot 2 (cue 20, channels 2 and 3) is READY. Playback
1's stack holds one entry. Bank 1 is live with one entry. Circuit 400 flashes; circuit 1 is parked by link B. -/
def busy (follow : Option EntryFollow) : State :=
  { State.reset with
    ports := ⟨livePort, livePort, livePort⟩
    lead := some .a
    slots := ((Table.fill 32 .empty).set 1 (.running ⟨10, 20, 20, 0, 0, none, 1⟩ [⟨0, 40000, none, none⟩])).set 2
      (.ready ⟨20, 20, 20, 0, 0, none, 2⟩ [⟨1, 10000, none, none⟩, ⟨2, 50000, some 0, some 3⟩])
    playbacks := (Table.fill 4 Playback.cold).set 0
      ⟨10, false, 100, 65535, some ⟨.cue, 10, .desk .a⟩, some 2000, [⟨0, [⟨0, 0⟩]⟩]⟩
    channels := (Table.fill 4 (Table.fill 512 ChannelRecord.cold)).set 0
      ((Table.fill 512 ChannelRecord.cold).set 0 ⟨20000, some ⟨0, .fading, 0, 40000, 0, 20000⟩⟩)
    runList := [⟨0, 0, .cue 1 10 follow, 0, 10000, 1, .desk .a⟩]
    births := 1
    banks := (Table.fill 4 []).set 0 [⟨0, 0, 100⟩]
    liveMap := (Table.fill 768 []).set 0 [⟨0, 100⟩]
    rebuild := none
    parks := [⟨399, 65535, some ⟨0, 25, 10, .b, 200⟩, .c⟩, ⟨0, 30000, none, .b⟩]
    pending := [.fadeTick] }

/-- The part in use with no follow pending, or with one to slot 2 that is due. -/
def plain : State := busy none
def following : State := busy (some ⟨2, 10000⟩)

/-- A state with a request untaken at the head of link `l`'s queue. -/
def asked (s : State) (l : Link) (kind : Byte) (body : List Byte) : State :=
  s.setPort l { livePort with queue := [⟨kind, 7, body⟩] }

/-- The request that `asked` puts there is the next to be taken. -/
theorem asked_atHead (f : Option EntryFollow) (l : Link) (kind : Byte) (body : List Byte) :
    AtHead (asked (busy f) l kind body) l ⟨kind, 7, body⟩ := by
  cases l <;> exact ⟨rfl, rfl⟩

/-- The state a step leads to; a step that stops leads nowhere. -/
def after (i : Instr) (s : State) : State :=
  match exec i s with
  | .next t => t
  | _ => State.reset

/-- The result code being sent on a link. -/
def codeOn (l : Link) (s : State) : Option ResultCode :=
  match (s.port l).head with
  | .replying r _ => some r.code
  | _ => none

/-- The body being sent on a link. -/
def bodyOn (l : Link) (s : State) : List Byte :=
  match (s.port l).head with
  | .replying r _ => r.body
  | _ => []

/-! ## The invariants hold of a part in use -/

theorem busy_slot (f : Option EntryFollow) (t : Fin 32) : (busy f).slot t =
    if t = 1 then .running ⟨10, 20, 20, 0, 0, none, 1⟩ [⟨0, 40000, none, none⟩]
    else if t = 2 then .ready ⟨20, 20, 20, 0, 0, none, 2⟩ [⟨1, 10000, none, none⟩, ⟨2, 50000, some 0, some 3⟩]
    else .empty := by
  revert t; simp only [State.slot, busy]; decide +kernel

theorem busy_channel (f : Option EntryFollow) (p : Fin 4) (c : Fin 512) : (busy f).channel p c =
    if p = 0 ∧ c = 0 then ⟨20000, some ⟨0, .fading, 0, 40000, 0, 20000⟩⟩ else ⟨0, none⟩ := by
  simp only [State.channel, busy, Table.get_set, Table.get_fill, ChannelRecord.cold]
  by_cases hp : 0 = p
  · subst hp
    by_cases hc : 0 = c
    · subst hc; simp
    · simp [Table.get_set, hc, Ne.symm hc]
  · simp [hp, Ne.symm hp]

theorem busy_playback (f : Option EntryFollow) (p : Fin 4) : (busy f).playback p =
    if p = 0 then ⟨10, false, 100, 65535, some ⟨.cue, 10, .desk .a⟩, some 2000, [⟨0, [⟨0, 0⟩]⟩]⟩ else Playback.cold := by
  revert p; simp only [State.playback, busy]; decide

theorem witness_EveryStepKeepsTheCueStoreLegal (f : Option EntryFollow) : (busy f).CuesLegal where
  reserved_le := by
    have h : (busy f).reservedMoves = (plain).reservedMoves := rfl
    rw [h]; decide +kernel
  slots t := by
    rw [busy_slot]
    split
    · exact ⟨by simp [contentLegal, CueHeader.Legal, Move.Legal, Config.lastCue, Config.declaredMoves, Config.lastTenths, Config.full], rfl⟩
    · split
      · exact ⟨by simp [contentLegal, CueHeader.Legal, Move.Legal, Config.lastCue, Config.declaredMoves, Config.lastTenths, Config.full], rfl⟩
      · trivial
  fills t d := by
    rw [busy_slot]
    constructor
    · rintro ⟨h, ms, e⟩
      split at e
      · cases e
      · split at e <;> cases e
    · intro h; cases d <;> cases h
  absorbs t d cue h := by cases d <;> cases h
  remote_none := rfl

theorem witness_EveryStepKeepsTheRunListLegal (f : Option EntryFollow) : (busy f).RunListLegal :=
  ⟨by simp [busy, Config.runEntries], by simp [busy], by simp [busy], by simp [busy]⟩

theorem witness_EveryStepKeepsTheEngineLegal (f : Option EntryFollow) : (busy f).EngineLegal where
  cues := witness_EveryStepKeepsTheCueStoreLegal f
  runList := witness_EveryStepKeepsTheRunListLegal f
  pairs_once p := by
    rw [busy_playback]
    split <;> simp [Playback.cold]
  owners p c o h := by
    rw [busy_channel] at h
    split at h
    · next hp => cases h; exact ⟨_, List.mem_singleton.2 rfl, rfl, hp.1.symm⟩
    · cases h
  counts e he := by
    cases List.mem_singleton.1 he
    show 1 = ((plain).channels.get 0).count (ownedBy 0)
    decide +kernel
  busy e he := by cases List.mem_singleton.1 he; exact .inl Nat.one_pos
  running t := by
    rw [busy_slot]
    constructor
    · rintro ⟨h, ms, e⟩
      split at e
      · next ht => subst ht; exact ⟨_, List.mem_singleton.2 rfl, _, _, rfl⟩
      · split at e <;> cases e
    · rintro ⟨e, he, cue, g, hk⟩
      cases List.mem_singleton.1 he
      cases hk
      exact ⟨_, _, rfl⟩
  one_entry t e he e' he' _ _ := by rw [List.mem_singleton.1 he, List.mem_singleton.1 he']

/-- What a start needs of the state it finds follows from the engine's invariant, with no follow firing. -/
theorem busy_ownersLegal (f : Option EntryFollow) : (busy f).OwnersLegal [] where
  runList := witness_EveryStepKeepsTheRunListLegal f
  owners := (witness_EveryStepKeepsTheEngineLegal f).owners
  counts := (witness_EveryStepKeepsTheEngineLegal f).counts
  busy e he := ((witness_EveryStepKeepsTheEngineLegal f).busy e he).imp_right .inl
  firing_lt := by simp

theorem witness_EveryStepKeepsTheLinksLegal (f : Option EntryFollow) : (busy f).LinksLegal where
  ports l := by
    have h : (busy f).port l = livePort := by cases l <;> rfl
    rw [h]
    exact ⟨by simp [livePort], by decide, by simp [livePort], by simp [livePort], by simp [livePort]⟩
  lead_live d _ := by cases d <;> rfl
  timed d := by cases d <;> simp [busy, State.reset, State.port, Ports.get, linkOf, livePort]
  not_both d h := by cases h.1
  remote_untimed := by simp [busy, State.port, Ports.get, livePort]

theorem witness_EveryStepKeepsTheRestoreAreaLegal (f : Option EntryFollow) : (busy f).RestoreLegal where
  held_le := by
    have h : (busy f).heldPairs = (plain).heldPairs := rfl
    rw [h]; decide
  depth_le p := by rw [busy_playback]; split <;> decide

theorem witness_EveryStepKeepsTheLevelsLegal (f : Option EntryFollow) : (busy f).LevelsLegal where
  records p c := by
    rw [busy_channel]
    split
    · refine ⟨by decide, ?_⟩
      rintro o ⟨⟩
      exact ⟨by decide, by decide, by decide, by decide, by simp⟩
    · exact ⟨by decide, by simp⟩
  targets t := by
    rw [busy_slot]
    split
    · decide
    · split
      · decide
      · decide
  restores p := by
    rw [busy_playback]
    split <;> simp [Playback.cold]
  backs e he cue pairs h := by cases List.mem_singleton.1 he; cases h
  frames k g h := by
    have hk : (busy f).rack k = RackLine.cold := Table.get_fill _ k
    rw [hk] at h; cases h
  masters p := by rw [busy_playback]; split <;> decide
  grand_le := Nat.le_refl _

theorem witness_EveryStepKeepsTheLiveMapOfTheLiveBank (f : Option EntryFollow) : (busy f).PatchLegal where
  banks n := by
    have h : (busy f).bank n = if n = 0 then [⟨0, 0, 100⟩] else [] := by
      revert n; simp only [State.bank, busy]; decide
    rw [h]
    split <;> exact ⟨by decide, by decide, by decide⟩
  stored n := by
    have h : (busy f).storedBanks.get n = ⟨false, []⟩ := Table.get_fill _ n
    rw [h]
    exact ⟨by decide, by decide, by decide⟩
  map_live _ c := by
    have h : (busy f).bank (busy f).liveBank = [⟨0, 0, 100⟩] := rfl
    rw [h]
    show ((Table.fill 768 ([] : List Feeder)).set 0 [⟨0, 100⟩]).get c = _
    rw [Table.get_set, Table.get_fill]
    by_cases hc : (0 : Fin 768) = c <;> simp [feedersOf, hc]

theorem witness_EveryStepKeepsTheParkListLegal (f : Option EntryFollow) : (busy f).ParksLegal where
  length_le := by simp [busy, Config.parkEntries]
  circuits := by simp [busy]
  entries x hx := by
    have h : x = ⟨399, 65535, some ⟨0, 25, 10, .b, 200⟩, .c⟩ ∨ x = ⟨0, 30000, none, .b⟩ := by simpa [busy] using hx
    rcases h with rfl | rfl
    · refine ⟨by decide, ?_⟩
      rintro f ⟨⟩
      decide
    · exact ⟨by decide, by simp⟩

theorem default_legal : RigRecord.default.Legal where
  profiles c := by rw [RigRecord.default, Table.get_fill]; exact ⟨by decide, by decide, by decide, by decide⟩
  laws_le := by decide
  laws := by simp [RigRecord.default]
  looks k := by rw [RigRecord.default, Table.get_fill]; exact ⟨by decide, by decide, by decide, by decide⟩
  lines n := by rw [RigRecord.default, Table.get_fill]; decide
  limits := by decide
  racks k := by rw [RigRecord.default, Table.get_fill]; decide
  playbacks p := by rw [RigRecord.default, Table.get_fill]; decide

theorem witness_EveryStepKeepsTheRigRecordLegal (f : Option EntryFollow) : (busy f).RigLegal where
  working := default_legal
  stored := default_legal
  faults := by
    show 0 = State.reset.rig.profiles.count (undefinedLaw State.reset.rig.laws)
    decide +kernel

/-- The step that each of the nine invariant statements speaks of is taken from that state. -/
theorem witness_a_step_is_taken (f : Option EntryFollow) : ∃ t, step (busy f) = .next t := ⟨_, rfl⟩

/-! ## States and operands that meet the other statements' hypotheses -/

theorem witness_RequestRowArrivesThenIsTaken :
    let i : Instr := .grand .a 7 [0xFF, 0xFF, 1]
    let r : Request := ⟨kindGrand, 7, [0xFF, 0xFF, 1]⟩
    let t := asked plain .a kindStatus []
    WellFormed i = true ∧ i.request? = some (.a, r) ∧ plain.power = .running ∧ t.power = .running ∧
      (plain.port .a).queue = [] ∧ (plain.port .a).head = .untaken ∧
      (t.port .a).queue ≠ [] ∧ (t.port .a).next? ≠ some r := by decide

theorem witness_ValidTelegramJoinsItsQueue :
    plain.power = .running := rfl

/-- The longest body a receiver accepts. -/
theorem witness_TelegramBytesDeliverTheRequest :
    let r : Request := ⟨kindYieldLead, 7, List.replicate 1098 0⟩
    let bytes := (Request.telegram r).map (Instr.linkByteReceived .a)
    let s : State := { plain with pending := bytes ++ [.fadeTick] }
    s.power = .running ∧ (s.port .a).receiver = .hunting ∧ r.body.length + 2 ≤ 1100 ∧ s.pending = bytes ++ [.fadeTick] := ⟨rfl, rfl, by decide +kernel, rfl⟩

theorem witness_ReceiverRowsFollowTheFraming :
    let s := plain.setPort .b { livePort with receiver := .collecting [0, 2, 0xC3] }
    s.power = .running ∧ (s.port .a).receiver = .hunting ∧ (s.port .b).receiver = .collecting [0, 2, 0xC3] ∧
      readTelegram [0, 2, 0xC3] = .partly := ⟨rfl, rfl, rfl, by decide⟩

theorem witness_ReplySentClearsTheHead :
    let s := plain.setPort .a
      { livePort with queue := [⟨kindStatus, 7, []⟩], head := .replying ⟨0x81, 7, .ok, []⟩ { forced := true } }
    s.power = .running ∧ (s.port .a).head = .replying ⟨0x81, 7, .ok, []⟩ { forced := true } := ⟨rfl, rfl⟩

/-- The highest kind whose reply has 0x80 added, and the lowest that returns unchanged. -/
theorem witness_UnknownKindChangesNothing :
    knownKind 0x7F = false ∧ knownKind 0x80 = false ∧
    AtHead (asked plain .a 0x7F []) .a ⟨0x7F, 7, []⟩ ∧
    AtHead (asked plain .c 0x80 [1]) .c ⟨0x80, 7, [1]⟩ := ⟨by decide, by decide, asked_atHead none _ _ _, asked_atHead none _ _ _⟩

theorem witness_WrongBodySizeIsBadField :
    (∀ k ∈ [kindGrand, kindCueMoves, kindManual, kindLookSet], knownKind k = true) ∧
    ¬ sizeFits kindGrand [1, 2] ∧ ¬ sizeFits kindCueMoves [0, 1] ∧ ¬ sizeFits kindManual [1, 0, 0, 1] ∧
    ¬ sizeFits kindLookSet [1, 0, 1] ∧ AtHead (asked plain .c kindGrand [1, 2]) .c ⟨kindGrand, 7, [1, 2]⟩ := ⟨by decide, by simp +decide [sizeFits], by simp +decide [sizeFits], by simp +decide [sizeFits], by simp +decide [sizeFits],
    asked_atHead none _ _ _⟩

theorem witness_TakenRequestAnswersOnItsOwnLink :
    WellFormed (.save .a 7 [1, 0]) = true ∧ Instr.request? (.save .a 7 [1, 0]) = some (.a, ⟨kindSave, 7, [1, 0]⟩) ∧
    AtHead (asked plain .a kindSave [1, 0]) .a ⟨kindSave, 7, [1, 0]⟩ := ⟨by decide, rfl, asked_atHead none _ _ _⟩

/-- The longest lists a count byte tells, every field at its highest value. -/
theorem witness_ListBodiesReadAsLaidOut :
    let ms : List MoveFields := List.replicate 255 ⟨65535, 65535, some 65534, none⟩
    let ps : List (Nat × Nat) := List.replicate 255 (65535, 65535)
    ms.length < 256 ∧ ps.length < 256 ∧ (∀ x ∈ ps, x.1 < 65536 ∧ x.2 < 65536) ∧
      (∀ n ∈ [65535, 0], n < 65536) ∧ (∀ v ∈ linearPoints.cells, v < 65536) ∧
      ∀ m ∈ ms, m.channel < 65536 ∧ m.target < 65536 ∧ (∀ n, m.ownTime = some n → n < 65535) ∧
        (∀ n, m.ownDelay = some n → n < 65535) := by
  refine ⟨by decide +kernel, by decide +kernel, ?_, by decide, by decide, ?_⟩
  · intro x hx; rw [List.eq_of_mem_replicate hx]; decide
  · intro m hm; rw [List.eq_of_mem_replicate hm]; simp

theorem witness_LeadRequestsFollowTheirTables :
    AtHead (asked plain .b kindTakeLead [1]) .b ⟨kindTakeLead, 7, [1]⟩ ∧
    AtHead (asked plain .a kindYieldLead []) .a ⟨kindYieldLead, 7, []⟩ := ⟨asked_atHead none _ _ _, asked_atHead none _ _ _⟩

theorem witness_LinkSetupFollowsItsRule :
    AtHead (asked plain .a kindLinkSetup [0, 63, 64, 1]) .a ⟨kindLinkSetup, 7, [0, 63, 64, 1]⟩ := asked_atHead none _ _ _

theorem witness_SilenceExpiryActsOnItsLink :
    let s := plain.setPort .b { livePort with state := .silent, monitor := none }
    s.power = .running ∧ (s.port .b).state = .silent ∧ (s.port .c).state = .live ∧ (s.port (linkOf .a)).state = .live := ⟨rfl, rfl, rfl, rfl⟩

theorem witness_StatusReportsTheState :
    AtHead (asked plain .c kindStatus []) .c ⟨kindStatus, 7, []⟩ := asked_atHead none _ _ _

/-- Every page inside the table at its last first index, with an item it carries, and one just outside it. -/
theorem witness_ReadAnswersPagesOfTheirSize :
    (∀ b ∈ [[1, 4, 1, 0xC1], [2, 0, 0, 0], [3, 0, 0, 0], [4, 0, 0, 63], [5, 0, 2, 0xC1], [6, 4, 3, 0xFF], [7, 0, 2, 0xE1],
        [8, 0, 0, 4], [4, 0, 0, 64]],
      AtHead (asked plain .c kindRead b) .c ⟨kindRead, 7, b⟩) ∧
    (511 : Fin 512).val + 1 = 449 + (63 : Fin 64).val ∧ plain.runList[0]? = some ⟨0, 0, .cue 1 10 none, 0, 10000, 1, .desk .a⟩ ∧
    plain.parks[0 + 1]? = some ⟨0, 30000, none, .b⟩ ∧ 256 * (2 : Fin 3).val + (255 : Fin 256).val + 1 = 705 + (63 : Fin 64).val ∧
    (plain.bank 0)[0 + 0]? = some ⟨0, 0, 100⟩ ∧ (767 : Fin 768).val + 1 = 737 + (31 : Fin 32).val ∧
    (plain.playback 0).stack[0]? = some ⟨0, [⟨0, 0⟩]⟩ := ⟨fun _ _ => asked_atHead none _ _ _, rfl, rfl, rfl, rfl, rfl, rfl, rfl⟩

/-- Every field at the end of its range, and the first slot outside it. -/
theorem witness_CueOpenFollowsItsTable :
    let good : List Byte := [31, 0x27, 0x0F, 0, 1, 0, 1, 0, 0, 0xFF, 0xFF, 31, 0x27, 0x10, 2, 0]
    let bad : List Byte := [32, 0x27, 0x0F, 0, 1, 0, 1, 0, 0, 0xFF, 0xFF, 31, 0x27, 0x10, 2, 0]
    let f : CueOpenFields := ⟨31, 9999, 1, 1, 0, 65535, some (31, 10000), 512⟩
    readCueOpen good = some f ∧ readCueOpen bad = some { f with slot := 32 } ∧
      AtHead (asked plain .a kindCueOpen good) .a ⟨kindCueOpen, 7, good⟩ ∧
      AtHead (asked plain .c kindCueOpen good) .c ⟨kindCueOpen, 7, good⟩ ∧
      AtHead (asked plain .b kindCueOpen bad) .b ⟨kindCueOpen, 7, bad⟩ ∧
      f.slot = (31 : Fin 32).val ∧ 1 ≤ f.cue ∧ f.cue ≤ 9999 ∧ 1 ≤ f.declared ∧ f.declared ≤ 512 ∧
      f.follow.map (fun x => (x.1, min x.2 9999)) =
        (some ⟨31, 9999⟩ : Option CueFollow).map (fun x => (x.slot.val, x.tenths)) := ⟨by decide, by decide, asked_atHead none _ _ _, asked_atHead none _ _ _, asked_atHead none _ _ _, rfl, by decide, by decide, by decide,
    by decide, by decide⟩

/-- The part in use with link A filling slot 3. -/
def filling : State :=
  (plain.setSlot 3 (.filling ⟨30, 10, 10, 0, 0, none, 512⟩ [] .a)).setPort .a { livePort with fill := some ⟨3, .filling⟩ }

theorem witness_FillsFollowTheirSlots :
    filling.fill .a = some ⟨3, .filling⟩ ∧ ∀ u, filling.fill .b ≠ some ⟨u, .filling⟩ := ⟨rfl, by intro u h; cases h⟩

theorem witness_CueMovesFollowsItsChecks :
    let body : List Byte := [3, 1, 2, 0, 0xFF, 0xFF, 0xFF, 0xFF, 0, 0]
    readCueMoves body = some (3, [⟨512, 65535, none, some 0⟩]) ∧
      AtHead (asked plain .a kindCueMoves body) .a ⟨kindCueMoves, 7, body⟩ := ⟨by decide, asked_atHead none _ _ _⟩

theorem witness_CueCloseAndDropFollowTheirRules :
    AtHead (asked plain .a kindCueClose [31]) .a ⟨kindCueClose, 7, [31]⟩ ∧
    AtHead (asked plain .b kindCueDrop [32]) .b ⟨kindCueDrop, 7, [32]⟩ := ⟨asked_atHead none _ _ _, asked_atHead none _ _ _⟩

theorem witness_FadeLevelFollowsTheClock :
    let o : Ownership := ⟨0, .waiting, 65535, 0, 20000, 60000⟩
    19999 < o.delay ∧ o.delay ≤ 20000 ∧ 79999 < o.delay + o.time ∧ o.delay + o.time ≤ 80000 ∧ o.target < o.start := by decide

theorem witness_TakeoverGivesDirectionDelayAndTime :
    (10000 : Nat) ≤ (⟨0, 10000, none, some 3⟩ : Move).target ∧ (⟨0, 10000, none, some 3⟩ : Move).target < 10001 := by decide

theorem witness_GoFollowsItsChecks :
    AtHead (asked plain .a kindGo [1, 2, 0, 20]) .a ⟨kindGo, 7, [1, 2, 0, 20]⟩ := asked_atHead none _ _ _

theorem witness_TakenGoSetsItsPlayback :
    plain.EngineLegal ∧
    plain.slot 2 = .ready ⟨20, 20, 20, 0, 0, none, 2⟩ [⟨1, 10000, none, none⟩, ⟨2, 50000, some 0, some 3⟩] ∧
    ∀ f : CueFollow, (none : Option CueFollow) = some f → 0 < f.tenths := ⟨witness_EveryStepKeepsTheEngineLegal none, busy_slot none 2, by intro f h; cases h⟩

/-- A start of two channels and of none, and a full list. -/
theorem witness_StartTakesOverItsChannels :
    let takes : List Take := [flatTake 0 0 65535, flatTake 9999 511 0]
    plain.OwnersLegal [] ∧ plain.runList.length < 16 ∧ (takes.map (·.channel)).Nodup ∧ (([] : List Take).map (·.channel)).Nodup ∧
      plain.RunListLegal ∧ plain.runList.length ≤ 16 := ⟨busy_ownersLegal none, by decide, by decide, by decide, witness_EveryStepKeepsTheRunListLegal none, by decide⟩

theorem witness_PushDiscardsOnlyForRoom :
    plain.RestoreLegal := witness_EveryStepKeepsTheRestoreAreaLegal none

theorem witness_BackFollowsItsRule :
    AtHead (asked plain .a kindBack [1]) .a ⟨kindBack, 7, [1]⟩ ∧
    plain.EngineLegal ∧ plain.runList.length < 16 ∧ (plain.playback 0).stack = ⟨0, [⟨0, 0⟩]⟩ :: [] ∧
    (⟨0, [⟨0, 0⟩]⟩ : RestoreEntry).pairs ≠ [] := ⟨asked_atHead none _ _ _, witness_EveryStepKeepsTheEngineLegal none, by decide, rfl, by decide⟩

theorem witness_ManualAndReleaseFollowTheirRules :
    let body : List Byte := [4, 0x27, 0x10, 1, 2, 0, 0xFF, 0xFF]
    readManual body = some ⟨4, 10000, [(512, 65535)]⟩ ∧
      AtHead (asked plain .a kindManual body) .a ⟨kindManual, 7, body⟩ ∧
      AtHead (asked plain .b kindRelease [1]) .b ⟨kindRelease, 7, [1]⟩ := ⟨by decide, asked_atHead none _ _ _, asked_atHead none _ _ _⟩

theorem witness_SteeringRequestsFollowTheirRules :
    AtHead (asked plain .a kindHold [0]) .a ⟨kindHold, 7, [0]⟩ ∧
    AtHead (asked plain .a kindResume [4]) .a ⟨kindResume, 7, [4]⟩ ∧
    AtHead (asked plain .a kindRate [1, 1, 0x91]) .a ⟨kindRate, 7, [1, 1, 0x91]⟩ ∧
    AtHead (asked plain .b kindPbLevel [4, 0, 0]) .b ⟨kindPbLevel, 7, [4, 0, 0]⟩ := ⟨asked_atHead none _ _ _, asked_atHead none _ _ _, asked_atHead none _ _ _, asked_atHead none _ _ _⟩

theorem witness_FadeTickAdvancesTheRunningEntries :
    let s : State := { plain with playbacks := plain.playbacks.map fun x => { x with held := true } }
    s.power = .running ∧ (∀ p, s.clockRuns p = false) ∧ plain.power = .running ∧ plain.EngineLegal ∧
      (∀ e ∈ plain.runList, e.follow = none) ∧ (∀ e ∈ plain.runList, e.birth ≠ 1) ∧
      (⟨0, 0, .cue 1 10 none, 0, 10000, 1, .desk .a⟩ : RunEntry) ∈ plain.runList ∧ plain.clockRuns 0 = true ∧
      s.clockRuns 0 = false ∧ plain.RunListLegal ∧ plain.OwnersLegal [] := ⟨rfl, by decide, rfl, witness_EveryStepKeepsTheEngineLegal none, by decide, by decide, by decide, by decide, by decide,
    witness_EveryStepKeepsTheRunListLegal none, busy_ownersLegal none⟩

/-- A follow due exactly at its clock, one due one unit later, a follow slot that is READY and one that is not, and a chain at its
beginning and at its 32nd start. -/
theorem witness_FollowDueFiresOrLapses :
    following.power = .running ∧ following.EngineLegal ∧ following.entry? 1 = none ∧
    (following.entry? 0).map (·.follow) = some (some ⟨2, 10000⟩) ∧ (following.entry? 0).map (·.clock) = some 10000 ∧
    following.clockRuns 0 = true ∧ (⟨2, 10000⟩ : EntryFollow).due ≤ 10000 ∧
    (busy (some ⟨3, 10001⟩)).EngineLegal ∧ 10000 < (⟨3, 10001⟩ : EntryFollow).due ∧
    following.slot 2 = .ready ⟨20, 20, 20, 0, 0, none, 2⟩ [⟨1, 10000, none, none⟩, ⟨2, 50000, some 0, some 3⟩] ∧
    following.slot 3 = .empty ∧ following.born? 1 = none ∧
    (following.born? 0).map (·.follow) = some (some ⟨2, 10000⟩) ∧ ([] : List (Fin 32)).Nodup ∧
    (let chain := (List.finRange 32).filter (· ≠ 2); (2 : Fin 32) ∉ chain ∧ chain.Nodup ∧ 32 ≤ 1 + chain.length) ∧
    ∀ g : CueFollow, (none : Option CueFollow) = some g → 0 < g.tenths := ⟨rfl, witness_EveryStepKeepsTheEngineLegal _, by decide, by decide, by decide, by decide, by decide,
    witness_EveryStepKeepsTheEngineLegal _, by decide, busy_slot _ 2, busy_slot _ 3, by decide, by decide, by decide,
    by decide +kernel, by intro g h; cases h⟩

theorem witness_EchoAndFlashTimersExpire :
    plain.power = .running := rfl

/-- The part in use with a full run list. -/
def full : State :=
  { plain with
    runList := List.ofFn fun n : Fin 16 => ⟨n, n.val, .manual, 0, 0, 0, .desk .a⟩
    births := 16 }

theorem witness_FullRunListForcesItsOldest :
    full.RunListLegal ∧ full.runList = ⟨0, 0, .manual, 0, 0, 0, .desk .a⟩ :: full.runList.tail ∧ full.runList.tail.length = 15 ∧
    plain.RunListLegal ∧ plain.runList.length < 16 := ⟨⟨by decide, by decide, by decide, by decide⟩, by decide, by decide, witness_EveryStepKeepsTheRunListLegal none, by decide⟩

theorem witness_PatchSetFollowsItsTable :
    AtHead (asked plain .a kindPatchSet [1, 2, 0, 3, 0, 101]) .a ⟨kindPatchSet, 7, [1, 2, 0, 3, 0, 101]⟩ ∧
    BankLegal [⟨0, 0, 1⟩, ⟨0, 1, 100⟩] := ⟨asked_atHead none _ _ _, by decide, by decide, by decide⟩

theorem witness_BankClearCopyAndStartFollowTheirRules :
    AtHead (asked plain .a kindBankClear [2]) .a ⟨kindBankClear, 7, [2]⟩ ∧
    AtHead (asked plain .a kindBankCopy [1, 4]) .a ⟨kindBankCopy, 7, [1, 4]⟩ ∧
    AtHead (asked plain .b kindStartBank [5]) .b ⟨kindStartBank, 7, [5]⟩ := ⟨asked_atHead none _ _ _, asked_atHead none _ _ _, asked_atHead none _ _ _⟩

/-- The part in use with a rebuild of bank 2 in flight for link A's BANK_SELECT. -/
def rebuilding : State :=
  { plain with rebuild := some ⟨1, some .a, false⟩ }.setPort .a
    { livePort with queue := [⟨kindBankSelect, 7, [2]⟩], head := .timed }

theorem witness_BankSelectAndRebuildEndFollowTheirRules :
    AtHead (asked plain .a kindBankSelect [2]) .a ⟨kindBankSelect, 7, [2]⟩ ∧
    plain.power = .running ∧ plain.rebuild = none ∧ rebuilding.rebuild = some ⟨1, some .a, false⟩ ∧
    (rebuilding.port (linkOf .a)).head = .timed ∧ State.reset.power = .running ∧ State.reset.rebuild = some ⟨0, none, true⟩ := ⟨asked_atHead none _ _ _, rfl, rfl, rfl, rfl, rfl, rfl⟩

theorem witness_SetupRequestsFollowTheirRules :
    let body : List Byte := [4, 3, 1, 3, 0, 0xFF, 0xFF]
    AtHead (asked plain .a kindPlaybackSetup [4, 0x27, 0x10, 0, 0]) .a ⟨kindPlaybackSetup, 7, [4, 0x27, 0x10, 0, 0]⟩ ∧
      AtHead (asked plain .a kindRackSetup [3, 16, 51]) .a ⟨kindRackSetup, 7, [3, 16, 51]⟩ ∧
      readLookSet body = some ⟨4, 3, [(768, 65535)]⟩ ∧ AtHead (asked plain .a kindLookSet body) .a ⟨kindLookSet, 7, body⟩ ∧
      (([⟨767, 1⟩, ⟨0, 2⟩] : List LookEntry).map (·.circuit)).Nodup := ⟨asked_atHead none _ _ _, asked_atHead none _ _ _, by decide, asked_atHead none _ _ _, by decide⟩

theorem witness_ProfileAndLawRequestsFollowTheirRules :
    let body : List Byte := 7 :: linearPoints.cells.flatMap bytes16
    AtHead (asked plain .a kindProfileSet [3, 0, 1, 7, 0, 0, 0, 0]) .a ⟨kindProfileSet, 7, [3, 0, 1, 7, 0, 0, 0, 0]⟩ ∧
      readLawLoad body = some (7, linearPoints) ∧ AtHead (asked plain .a kindLawLoad body) .a ⟨kindLawLoad, 7, body⟩ := ⟨asked_atHead none _ _ _, by decide, asked_atHead none _ _ _⟩

theorem witness_PointLawsInterpolate :
    Points.Legal squarePoints ∧ 4096 * (15 : Fin 16).val ≤ 65535 ∧ 65535 < 4096 * ((15 : Fin 16).val + 1) ∧
    5 ≤ 7 ∧ [linearPoints][0]? = some linearPoints ∧ [linearPoints].length ≤ 1 := ⟨⟨by decide, by decide⟩, by decide, by decide, by decide, rfl, by decide⟩

theorem witness_OutputsObeyTheirLimits :
    (⟨0, 3, 65535, 65535⟩ : Profile).Legal ∧ lawOf [] 0 3 = .switch ∧ lawOf [] 0 4 = .fluorescent ∧ lawOf [] 0 1 ≠ .switch ∧
    lawOf [] 0 1 = .points squarePoints ∧ undefinedLaw [] ⟨1, 0, 0, 0⟩ = true ∧ (⟨1, 0, 0, 0⟩ : Profile).Legal := ⟨⟨by decide, by decide, by decide, by decide⟩, rfl, rfl, by decide, rfl, by decide, ⟨by decide, by decide, by decide, by decide⟩⟩

theorem witness_ParkRequestsFollowTheirRules :
    AtHead (asked plain .c kindPark [3, 0, 0xFF, 0xFF]) .c ⟨kindPark, 7, [3, 0, 0xFF, 0xFF]⟩ ∧
    AtHead (asked plain .b kindFlash [3, 1, 0, 0, 0, 0, 0, 0]) .b ⟨kindFlash, 7, [3, 1, 0, 0, 0, 0, 0, 0]⟩ ∧
    AtHead (asked plain .a kindNudge [1, 0x90, 0xC0]) .a ⟨kindNudge, 7, [1, 0x90, 0xC0]⟩ ∧
    AtHead (asked plain .a kindUnpark [3, 1]) .a ⟨kindUnpark, 7, [3, 1]⟩ ∧
    numbered 768 (0x03 * 256 + 0x00) = some 767 ∧ numbered 768 (0x03 * 256 + 0x01) = none ∧ plain.lead ≠ some .b ∧ plain.lead = some .a ∧
    (asked plain .a kindNudge [1, 0x90, 0xC0]).ParksLegal ∧
    (⟨399, 65535, some ⟨0, 25, 10, .b, 200⟩, .c⟩ : Park) ∈ plain.parks ∧ ∀ x ∈ plain.parks, x.circuit ≠ 767 := by
  refine ⟨asked_atHead none _ _ _, asked_atHead none _ _ _, asked_atHead none _ _ _, asked_atHead none _ _ _, by decide, by decide, by decide,
    rfl, ?_, by decide, by decide⟩
  obtain ⟨h1, h2, h3⟩ := witness_EveryStepKeepsTheParkListLegal none
  exact ⟨h1, h2, h3⟩

theorem witness_StageLinesDebounceTheirInputs :
    let s := plain.setLine 1 ⟨.high, some .high, none⟩
    s.power = .running ∧ (s.line 1).input = .high ∧ (s.line 1).input ≠ .low ∧ (s.line 1).timer = none ∧
      (s.line 0).timer = some ⟨.high, 20⟩ := by decide

theorem witness_LineSetupAndLookFlagsFollowTheirRules :
    AtHead (asked plain .a kindLineSetup [4, 1, 3, 2, 4, 251]) .a ⟨kindLineSetup, 7, [4, 1, 3, 2, 4, 251]⟩ ∧
    AtHead (asked plain .a kindLookRaise [4]) .a ⟨kindLookRaise, 7, [4]⟩ ∧
    AtHead (asked plain .a kindLookLower [0]) .a ⟨kindLookLower, 7, [0]⟩ := ⟨asked_atHead none _ _ _, asked_atHead none _ _ _, asked_atHead none _ _ _⟩

theorem witness_ShowOutputIsTheHighestContribution :
    plain.blackout = false ∧ ({ plain with blackout := true } : State).blackout = true ∧ (⟨0, 100⟩ : Feeder) ∈ plain.liveMap.get 0 := by decide +kernel

theorem witness_HeldCircuitsIgnoreTheShow :
    let t : State := { plain with grand := 0, blackout := true }
    plain.rig = t.rig ∧ plain.parks = t.parks ∧ plain.stage = t.stage ∧ plain.deskRaised = t.deskRaised ∧
      plain.ParksLegal ∧ (⟨399, 65535, some ⟨0, 25, 10, .b, 200⟩, .c⟩ : Park) ∈ plain.parks ∧ plain.lookLevel 399 = none ∧
      (∀ x ∈ plain.parks, x.circuit ≠ 767) ∧ plain.lookLevel 767 = none := ⟨rfl, rfl, rfl, rfl, witness_EveryStepKeepsTheParkListLegal none, by decide, by decide +kernel, by decide, by decide +kernel⟩

/-- A raised look that names a circuit parked beside it. -/
theorem witness_HeldCircuitsIgnoreTheShow_look :
    let s : State := { plain with
      deskRaised := plain.deskRaised.set 1 true
      rig := { plain.rig with looks := plain.rig.looks.set 1 ⟨0, [⟨0, 50000⟩]⟩ } }
    s.ParksLegal ∧ s.lookLevel 0 = some 50000 ∧ ∃ x ∈ s.parks, x.circuit = 0 := by
  obtain ⟨h1, h2, h3⟩ := witness_EveryStepKeepsTheParkListLegal none
  exact ⟨⟨h1, h2, h3⟩, by decide +kernel, by decide⟩

/-- The part in use with every rack line's period timer running and its last frame all dark. -/
def lit : State :=
  { plain with racks := Table.fill 3 ⟨some 25, some ⟨.bits8, Table.fill 256 0⟩, 0, []⟩ }

theorem witness_FrameStartSendsOrRepeats :
    let s : State := { lit with rebuild := some ⟨1, none, false⟩ }
    let t : State := { s with racks := Table.fill 3 ⟨some 25, none, 0, []⟩ }
    lit.power = .running ∧ (plain.rack 0).timer = none ∧ (lit.rack 0).timer ≠ none ∧ lit.rebuild = none ∧
      s.rebuild ≠ none ∧ (s.rack 2).last = some ⟨.bits8, Table.fill 256 0⟩ ∧ (t.rack 2).last = none ∧ (t.rack 2).timer ≠ none := ⟨rfl, rfl, by decide, rfl, by simp, rfl, rfl, by simp [State.rack, Table.get, Table.fill]⟩

theorem witness_GrandFollowsItsRule :
    AtHead (asked plain .a kindGrand [0xFF, 0xFF, 1]) .a ⟨kindGrand, 7, [0xFF, 0xFF, 1]⟩ := asked_atHead none _ _ _

/-- The part in use with a save in flight for link A. -/
def saving (cls : SaveClass) : State :=
  { plain with saving := some ⟨cls, .a⟩ }.setPort .a { livePort with queue := [⟨kindSave, 7, []⟩], head := .timed }

theorem witness_SaveAndItsEndFollowTheirRules :
    AtHead (asked plain .a kindSave [0, 4]) .a ⟨kindSave, 7, [0, 4]⟩ ∧
    plain.power = .running ∧ plain.saving = none ∧ (saving (.bank 3)).saving = some ⟨.bank 3, .a⟩ ∧
    (saving .rig).saving = some ⟨.rig, .a⟩ ∧ ((saving (.bank 3)).port (linkOf .a)).head = .timed ∧
    ((saving .rig).port (linkOf .a)).head = .timed ∧
    (∃ t, step (saving (.bank 3)) = .next t ∧ t.saving = (saving (.bank 3)).saving) ∧
    (saving .rig).saving.map (·.cls) = some .rig := ⟨asked_atHead none _ _ _, rfl, rfl, rfl, rfl, rfl, rfl,
    ⟨{ (saving (.bank 3)) with pending := [] }.tick, rfl, by decide +kernel⟩, rfl⟩

theorem witness_ResetAndRestartFollowTheirRules :
    let u : State := { plain with lead := none, parks := [] }
    u.storedBanks = plain.storedBanks ∧ u.storedRig = plain.storedRig ∧ (∀ n, (u.line n).input = (plain.line n).input) ∧
      u.pending = plain.pending ∧ plain.power = .running ∧ u.power ≠ .dipped .low ∧ plain.power ≠ .dipped .low ∧
      (∀ r, plain.power ≠ .dipped r) ∧ (after .supplyDip plain).power = .dipped .high ∧
      (after .resetAssert (after .supplyDip plain)).power = .dipped .low := by
  have runs : ∀ r, Power.running ≠ .dipped r := by simp
  exact ⟨rfl, rfl, fun _ => rfl, rfl, rfl, runs _, runs _, runs, rfl, rfl⟩

/-! ## Telegrams (sections 12.1 and 10.8) -/

/-- 12.1: the check over the characters 0x31 to 0x39. -/
theorem test_crc_of_the_nine_digits : crc16 [0x31, 0x32, 0x33, 0x34, 0x35, 0x36, 0x37, 0x38, 0x39] = 0x29B1 := by decide +kernel

/-- 12.1: the worked telegram. -/
theorem test_status_telegram : Request.telegram ⟨kindStatus, 0, []⟩ = [0xC3, 0x00, 0x02, 0x01, 0x00, 0xD9, 0x91] := by decide +kernel

/-- 12.1: its last byte hands the request on. -/
theorem test_last_byte_hands_on :
    let s := after (.linkByteReceived .b 0x91) (plain.setPort .b { livePort with receiver := .collecting [0, 2, 1, 0, 0xD9] })
    (s.port .b).queue = [⟨kindStatus, 0, []⟩] ∧ (s.port .b).receiver = .hunting := by decide +kernel

/-- R155: a bad check; the 0xC3 among the bytes taken starts a telegram anew. -/
theorem test_bad_check_is_examined_again :
    let s := after (.linkByteReceived .b 0x10) (plain.setPort .b { livePort with receiver := .collecting [0, 2, 1, 0xC3, 0x00] })
    (s.port .b).queue = [] ∧ (s.port .b).receiver = .collecting [0x00, 0x10] := by decide +kernel

/-- R155: length 0x44D is 1101. -/
theorem test_length_out_of_range : readTelegram [0x04, 0x4D] = .bad ∧ readTelegram [0x04, 0x4C] = .partly := by decide +kernel

theorem test_bad_telegram_hunts_on :
    ((after (.badTelegram .b) (plain.setPort .b { livePort with receiver := .collecting [0, 5, 0xC3, 7] })).port .b).receiver =
      .collecting [7] := by decide +kernel

theorem test_gap_drops_the_bytes :
    ((after (.interByteGap .b) (plain.setPort .b { livePort with receiver := .collecting [0, 5, 0xC3, 7] })).port .b).receiver =
      .hunting := by decide +kernel

/-- A link with `n` STATUS requests pending. -/
def queued (n : Nat) : State := plain.setPort .a { livePort with queue := List.replicate n ⟨kindStatus, 0, []⟩ }

/-- 10.8: the fourth request joins the queue, the fifth is discarded with OVERRUN. -/
theorem test_fourth_joins_fifth_overruns :
    let third := (after (.validTelegram .a kindGrand 1 [0, 0, 0]) (queued 3)).port .a
    let fourth := (after (.validTelegram .a kindGrand 1 [0, 0, 0]) (queued 4)).port .a
    third.queue.length = 4 ∧ third.notices.overrun = false ∧ fourth.queue.length = 4 ∧ fourth.notices.overrun = true := by
  decide +kernel

/-- 10.8: a STATUS reply sent whole clears the OVERRUN it carried. -/
theorem test_reply_sent_clears_what_it_carried :
    let s := plain.setPort .a { livePort with
      queue := [⟨kindStatus, 0, []⟩, ⟨kindRead, 0, []⟩]
      head := .replying ⟨0x81, 0, .ok, []⟩ { overrun := true }
      notices := { overrun := true, forced := true } }
    ((after (.replySent .a) s).port .a).queue = [⟨kindRead, 0, []⟩] ∧
      ((after (.replySent .a) s).port .a).notices = { forced := true } := by decide +kernel

theorem test_unknown_kind :
    (after (.unknownKind .c 0x90 7 []) plain).ports.c.head = .replying ⟨0x90, 7, .unknownKind, []⟩ {} := by decide +kernel

/-- R158: a GRAND of two bytes. -/
theorem test_wrong_size : codeOn .c (after (.grand .c 7 [1, 2]) plain) = some .badField := by decide +kernel

/-! ## Links and lead (chapter 10) -/

/-- R185: lead A; current cue 10 of playback 1 with its flags, rate and master. -/
theorem test_status_body :
    let b := bodyOn .c (after (.status .c 7 []) plain)
    b.length = 79 ∧ b.take 13 = [1, 1, 1, 1, 0, 10, 0, 0, 0, 100, 0xFF, 0xFF, 1] := by decide +kernel

/-- R186: the page kinds at the ends of their ranges. -/
theorem test_read_page_sizes :
    ([[1, 4, 1, 0xC1], [2, 0, 0, 0], [3, 0, 0, 0], [4, 0, 0, 63], [5, 0, 2, 0xC1], [6, 4, 3, 0xFF], [7, 0, 2, 0xE1], [8, 0, 0, 1]] :
      List (List Byte)).map (fun b => (bodyOn .c (after (.read .c 7 b) plain)).length) = [1028, 20, 257, 4, 137, 7, 228, 7] := by
  decide +kernel

/-- R186: the record of channel 1 (FADING, owner 0, 0 to 40000, T 20,000) behind the four header bytes of page CHANNELS. -/
theorem test_read_channel_record :
    (bodyOn .c (after (.read .c 7 [1, 1, 0, 1]) plain)).take 20 =
      [1, 1, 0, 1, 0x4E, 0x20, 2, 0, 0, 0, 0x9C, 0x40, 0, 0, 0, 0, 0, 0, 0x4E, 0x20] := by decide +kernel

/-- 10.8: B's TAKE_LEAD while A leads, without and with force. -/
theorem test_take_lead :
    codeOn .b (after (.takeLead .b 7 [0]) plain) = some .leadHeld ∧ (after (.takeLead .b 7 [1]) plain).lead = some .b ∧
      (after (.takeLead .b 7 [1]) plain).ports.c.notices.leadTaken = false := by decide +kernel

theorem test_yield_lead :
    (after (.yieldLead .a 7 []) plain).lead = none ∧ codeOn .b (after (.yieldLead .b 7 []) plain) = some .notLead := by decide +kernel

theorem test_link_setup_clamps :
    codeOn .a (after (.linkSetup .a 7 [0, 63, 64, 0]) plain) = some .clamped ∧
      (after (.linkSetup .a 7 [0, 63, 64, 0]) plain).rig.linkSetup = ⟨1, 63, 63, false⟩ := by decide +kernel

/-- 10.8: A's monitor expires; B leads, and every link has FAILOVER. -/
theorem test_failover :
    let s := after (.silenceMonitorExpiry .a) plain
    s.lead = some .b ∧ s.ports.a.state = .silent ∧ s.ports.c.notices.failover = true := by decide +kernel

/-- R119: the remote's parks go with it. -/
theorem test_remote_silence_frees_its_parks :
    (after (.silenceMonitorExpiry .c) plain).parks.map (·.circuit) = [0] := by decide +kernel

/-! ## The cue store (section 1.8) -/

/-- Slots 0 to 3 READY with declared counts 120, 80, 200 and 60, and A leading. -/
def loading : State :=
  { plain with slots := ((((Table.fill 32 .empty).set 0 (.ready ⟨1, 0, 0, 0, 0, none, 120⟩ [])).set 1
      (.ready ⟨2, 0, 0, 0, 0, none, 80⟩ [])).set 2 (.ready ⟨3, 0, 0, 0, 0, none, 200⟩ [])).set 3 (.ready ⟨4, 0, 0, 0, 0, none, 60⟩ []) }

/-- CUE_OPEN of slot 4 for cue 125 with 70 moves and no follow. -/
def open125 : List Byte := [4, 0, 125, 0, 0, 0, 0, 0, 0, 0, 0, 0xFF, 0, 0, 0, 70]

/-- 1.8: 3636 entries are free before A's CUE_OPEN and 3566 after it; B's is absorbed. -/
theorem test_two_desks_load_one_cue :
    let s := after (.cueOpen .a 7 open125) loading
    let u := after (.cueOpen .b 7 open125) s
    loading.freeMoves = 3636 ∧ codeOn .a s = some .ok ∧ s.freeMoves = 3566 ∧ codeOn .b u = some .echo ∧ u.freeMoves = 3566 ∧
      u.fill .b = some ⟨4, .absorbing 125⟩ := by decide +kernel

/-- 1.8: a shadow whose cue number differs from a READY slot's. -/
theorem test_shadow_diverges :
    let s := after (.cueOpen .b 7 (3 :: open125.tail)) loading
    codeOn .b s = some .notLead ∧ s.ports.a.notices.diverged = true ∧ s.freeMoves = 3636 := by decide +kernel

/-- R15: a channel the slot already holds, then a move that joins it. -/
theorem test_cue_moves :
    let s := filling.setSlot 3 (.filling ⟨30, 10, 10, 0, 0, none, 2⟩ [⟨4, 1, none, none⟩] .a)
    let twice := after (.cueMoves .a 7 [3, 1, 0, 5, 0, 9, 0xFF, 0xFF, 0xFF, 0xFF]) s
    let joins := after (.cueMoves .a 7 [3, 1, 0, 6, 0, 9, 0x27, 0x10, 0xFF, 0xFF]) s
    codeOn .a twice = some .badField ∧ codeOn .a joins = some .clamped ∧
      (joins.slot 3).moves = [⟨4, 1, none, none⟩, ⟨5, 9, some 9999, none⟩] := by decide +kernel

/-- R16: a close at the declared count, and one short of it. -/
theorem test_cue_close :
    let s := filling.setSlot 3 (.filling ⟨30, 10, 10, 0, 0, none, 1⟩ [⟨4, 1, none, none⟩] .a)
    (after (.cueClose .a 7 [3]) s).slot 3 = .ready ⟨30, 10, 10, 0, 0, none, 1⟩ [⟨4, 1, none, none⟩] ∧
      codeOn .a (after (.cueClose .a 7 [3]) filling) = some .countMismatch ∧
      (after (.cueClose .a 7 [3]) filling).slot 3 = .empty := by decide +kernel

theorem test_cue_drop :
    codeOn .a (after (.cueDrop .a 7 [1]) plain) = some .slotRunning ∧ (after (.cueDrop .a 7 [2]) plain).slot 2 = .empty := by
  decide +kernel

/-! ## Fades (section 3.7) -/

/-- 3.7: 16384 toward 49152 in 2.5 s. -/
theorem test_fade_at_each_clock :
    ([0, 10000, 17500, 25000].map fun e => (evalOwned ⟨0, .fading, 16384, 49152, 0, 25000⟩ e).level) =
      [16384, 29491, 39321, 49152] := by decide +kernel

/-- 3.7: a takeover mid-fade, downward. -/
theorem test_takeover_mid_fade :
    (evalOwned ⟨0, .fading, 0, 65535, 0, 50000⟩ 20000).level = 26214 ∧
      evalOwned ⟨1, .fading, 26214, 10000, 0, 20000⟩ 10000 = ⟨18107, some ⟨1, .fading, 26214, 10000, 0, 20000⟩⟩ ∧
      evalOwned ⟨1, .fading, 26214, 10000, 0, 20000⟩ 20000 = ⟨10000, none⟩ := by decide +kernel

/-- R35: a stale cue number, and a GO taken: slot 2 RUNNING under entry 1, which owns its two channels. -/
theorem test_go :
    let s := after (.go .a 7 [1, 2, 0, 20]) plain
    codeOn .a (after (.go .a 7 [1, 2, 0, 21]) plain) = some .staleSlot ∧ codeOn .a s = some .ok ∧
      s.runList.map (fun e => (e.number, e.owned)) = [(0, 1), (1, 2)] ∧ (s.playback 0).currentCue = 20 ∧
      ((s.playback 0).stack.map fun r => (r.priorCue, r.pairs.length)) = [(10, 2), (0, 1)] := by decide +kernel

/-- R34: the second GO of one cue within the echo time. -/
theorem test_go_echo : codeOn .b (after (.go .b 7 [1, 1, 0, 10]) plain) = some .echo := by decide +kernel

/-- R68, R69: BACK takes channel 1 from entry 0, which leaves. -/
theorem test_back :
    let s := after (.back .a 7 [1]) plain
    codeOn .a s = some .ok ∧ (s.playback 0).currentCue = 0 ∧ (s.playback 0).stack = [] ∧
      s.channel 0 0 = ⟨20000, some ⟨1, .fading, 20000, 0, 0, 10000⟩⟩ ∧ s.runList.map (·.number) = [1] := by decide +kernel

/-- 2.9: a MANUAL of time 0 takes the lowest free number, snaps its channel and leaves within its start. -/
theorem test_manual_snaps :
    let s := after (.manual .a 7 [1, 0, 0, 1, 0, 6, 0x12, 0x34]) plain
    codeOn .a s = some .ok ∧ s.channel 0 5 = ⟨0x1234, none⟩ ∧ s.runList.map (·.number) = [0] ∧ s.births = 2 := by decide +kernel

/-- R39: a RELEASE of a playback all dark makes no entry. -/
theorem test_release : (after (.release .a 7 [2]) plain).births = 1 := by decide +kernel

theorem test_hold_and_resume :
    let s := after (.hold .a 7 [0]) plain
    (∀ p, (s.playback p).held = true) ∧
      ((after (.resume .a 7 [4]) { s with ports := plain.ports }).playback 3).held = false ∧
      codeOn .a (after (.hold .a 7 [5]) plain) = some .badField := by decide +kernel

theorem test_rate_clamps :
    ((after (.rate .a 7 [1, 1, 0x91]) plain).playback 0).rate = 400 ∧ ((after (.rate .a 7 [1, 0, 0]) plain).playback 0).rate = 1 := by
  decide +kernel

theorem test_pb_level : ((after (.pbLevel .a 7 [4, 0xC0, 0x00]) plain).playback 3).master = 49152 := by decide +kernel

theorem test_playback_setup :
    (after (.playbackSetup .a 7 [4, 0x27, 0x10, 0, 5]) plain).rig.playbacks.get 3 = ⟨9999, 5⟩ := by decide +kernel

/-- R32: one tick at rate 100 brings channel 1 from 10,000 to 10,100 of 20,000. -/
theorem test_fade_tick :
    let s := after .fadeTick plain
    (s.channel 0 0).level = 20200 ∧ s.runList.map (·.clock) = [10100] := by decide +kernel

/-- R36: the due follow starts slot 2 under its own entry. -/
theorem test_follow_due_fires :
    let s := after (.followDue 0) following
    s.runList.map (fun e => (e.number, e.startedBy)) = [(0, .desk .a), (1, .follow)] ∧ (s.playback 0).currentCue = 20 := by
  decide +kernel

/-- R36: a due follow to an EMPTY slot. -/
theorem test_follow_lapses :
    let s := after (.followDue 0) (busy (some ⟨3, 10000⟩))
    s.ports.b.notices.followLapsed = true ∧ s.runList.map RunEntry.follow = [none] := by decide +kernel

/-- 2.9, the follow chain: slot 6 follows to slot 7 and slot 7 back to slot 6, both at time 0. Slot 6 has left, slot 7's follow
has lapsed, the current cue is 210. -/
theorem test_follow_chain :
    let s := { plain with
      slots := (plain.slots.set 6 (.ready ⟨200, 0, 0, 0, 0, some ⟨7, 0⟩, 1⟩ [⟨6, 100, none, none⟩])).set 7
        (.ready ⟨210, 30, 0, 0, 0, some ⟨6, 0⟩, 1⟩ [⟨7, 200, none, none⟩]) }
    let t := after (.go .a 7 [1, 6, 0, 200]) s
    t.slot 6 = .ready ⟨200, 0, 0, 0, 0, some ⟨7, 0⟩, 1⟩ [⟨6, 100, none, none⟩] ∧
      t.runList.map (·.kind) = [.cue 1 10 none, .cue 7 210 none] ∧ (t.playback 0).currentCue = 210 ∧
      t.ports.b.notices.followLapsed = true ∧ (t.playback 0).echo = some ⟨.cue, 210, .follow⟩ := by decide +kernel

theorem test_echo_timer_expiry :
    let x := (after (.echoTimerExpiry 0) plain).playback 0
    x.echoTimer = none ∧ x.echo = some ⟨.cue, 10, .desk .a⟩ := by decide +kernel

/-- 2.9: the oldest of 16 entries makes room. -/
theorem test_full_run_list :
    let s := full.makeRoom
    s.runList.map (·.birth) = (List.range 15).map (· + 1) ∧ s.ports.c.notices.forced = true := by decide +kernel

/-- 4.8: playback 2 holds 1500 pairs, a BACK entry 300, playback 1's stack 60 over 40. -/
def crowded : State :=
  let entry (n : Nat) : RestoreEntry := ⟨0, List.replicate n ⟨0, 0⟩⟩
  { plain with
    playbacks := (plain.playbacks.set 0 { Playback.cold with stack := [entry 60, entry 40] }).set 1
      { Playback.cold with stack := List.replicate 6 (entry 250) }
    runList := [⟨0, 0, .back 0 (List.replicate 300 ⟨0, 0⟩), 2, 0, 1, .desk .a⟩] }

/-- 4.8: a push of 200 discards both entries and leaves 48 pairs free; one of 300 after it empties the stack with BACK_LOST. -/
theorem test_restore_room :
    let s := crowded.push 0 (List.replicate 200 ⟨0, 0, none, none⟩)
    let u := s.push 0 (List.replicate 300 ⟨0, 0, none, none⟩)
    crowded.freePairs = 148 ∧ s.freePairs = 48 ∧ ((s.playback 0).stack.map (·.pairs.length)) = [200] ∧
      u.freePairs = 248 ∧ (u.playback 0).stack = [] ∧ u.ports.a.notices.backLost = true := by decide +kernel

/-! ## The patch (section 5.8) -/

/-- 5.8: a percent of 150 is held to 100 on a live pair, a percent of 0 takes a pair away. -/
theorem test_patch_set :
    let s := after (.patchSet .a 7 [1, 0, 1, 0, 1, 150]) plain
    codeOn .a s = some .clamped ∧ s.bank 0 = [⟨0, 0, 100⟩] ∧ (after (.patchSet .a 7 [1, 0, 1, 0, 1, 0]) plain).bank 0 = [] ∧
      (after (.patchSet .a 7 [1, 0, 40, 0, 1, 80]) plain).liveMap.get 0 = [⟨0, 100⟩, ⟨39, 80⟩] := by decide +kernel

theorem test_bank_clear :
    codeOn .a (after (.bankClear .a 7 [1]) plain) = some .bankLive ∧ codeOn .a (after (.bankClear .a 7 [2]) plain) = some .ok := by
  decide +kernel

theorem test_bank_copy : (after (.bankCopy .a 7 [1, 3]) plain).bank 2 = [⟨0, 0, 100⟩] := by decide +kernel

/-- 5.8: BANK_SELECT with a run entry in the list. -/
theorem test_bank_select :
    codeOn .a (after (.bankSelect .a 7 [2]) plain) = some .cuesRunning ∧
      (after (.bankSelect .a 7 [2]) { plain with runList := [] }).rebuild = some ⟨1, some .a, false⟩ := by decide +kernel

/-- 5.8: the rebuild ends, bank 2 is live and the select is answered. -/
theorem test_rebuild_end :
    let s := after .rebuildEnd rebuilding
    codeOn .a s = some .ok ∧ s.liveBank = 1 ∧ s.rebuild = none ∧ s.liveMap.get 0 = [] := by decide +kernel

theorem test_start_bank : (after (.startBank .a 7 [4]) plain).rig.startBank = 3 := by decide +kernel

/-! ## Laws and limits (section 6.9) -/

/-- 6.9: raw levels through the built-in laws. -/
theorem test_built_in_laws :
    [15000, 32768, 61439, 61440, 65535].map (interpolate squarePoints) = [3489, 16383, 57597, 57599, 65535] ∧
      interpolate faststartPoints 15000 = 26509 ∧ interpolate linearPoints 15000 = 15000 ∧
      [32767, 32768].map Law.switch.output = [0, 65535] ∧ [0, 1, 15000].map Law.fluorescent.output = [0, 16384, 27634] := by
  decide +kernel

/-- 6.9: limits applied. -/
theorem test_limits :
    profileOutput [] ⟨0, 1, 2000, 65535⟩ 15000 = 3489 ∧ profileOutput [] ⟨0, 0, 2000, 65535⟩ 0 = 2000 ∧
      profileOutput [] ⟨0, 2, 0, 20000⟩ 15000 = 20000 ∧ profileOutput [] ⟨0, 3, 5000, 40000⟩ 1000 = 0 ∧
      profileOutput [] ⟨0, 3, 5000, 40000⟩ 50000 = 40000 ∧ profileOutput [] ⟨0, 4, 3000, 65535⟩ 0 = 3000 := by decide +kernel

/-- R101, R104: a profile that names user law 8 of none. -/
theorem test_profile_set :
    let s := after (.profileSet .a 7 [0, 1, 1, 7, 0, 0, 0xFF, 0xFF]) plain
    codeOn .a s = some .ok ∧ s.lawFaults = 1 ∧ s.ports.c.notices.lawFault = true := by decide +kernel

/-- R107: the first user law loads at index 0 only. -/
theorem test_law_load :
    codeOn .a (after (.lawLoad .a 7 (1 :: linearPoints.cells.flatMap bytes16)) plain) = some .badField ∧
      (after (.lawLoad .a 7 (0 :: linearPoints.cells.flatMap bytes16)) plain).rig.laws = [linearPoints] := by decide +kernel

/-! ## Parks (section 7.8) -/

theorem test_park :
    (after (.park .c 7 [3, 0, 0x80, 0]) plain).parks.map (·.circuit) = [399, 0, 767] ∧
      codeOn .b (after (.park .b 7 [3, 0, 0x80, 0]) plain) = some .notLead := by decide +kernel

theorem test_flash :
    (after (.flash .a 7 [0, 1, 0xFF, 0xFF, 0, 0, 0, 10]) plain).parks.getLast? =
      some ⟨0, 65535, some ⟨0, 1, 10, .a, 20⟩, .a⟩ := by decide +kernel

/-- 7.8: circuit 400 at 65535 nudged by -64 stands at 49151, and now belongs to the sender. -/
theorem test_nudge :
    (after (.nudge .a 7 [1, 0x90, 0xC0]) plain).parks.head? = some ⟨399, 49151, some ⟨0, 25, 10, .b, 200⟩, .a⟩ ∧
      codeOn .a (after (.nudge .a 7 [1, 0x90, 1]) plain) = some .clamped := by decide +kernel

theorem test_unpark :
    (after (.unpark .a 7 [1, 0x90]) plain).parks.map (·.circuit) = [0] ∧ (after (.unpark .c 7 [0, 0]) plain).parks.map (·.circuit) = [0] ∧
      codeOn .a (after (.unpark .a 7 [3, 1]) plain) = some .badField := by decide +kernel

/-- 7.8: phase B ends; phase A runs for 25 x 20 ms. -/
theorem test_flash_timer :
    (after (.flashTimerExpiry 399) plain).parks.head? = some ⟨399, 65535, some ⟨0, 25, 10, .a, 500⟩, .c⟩ := by decide +kernel

/-! ## Stage lines and looks (section 8.9) -/

/-- Line 2 as in 8.9: active LOW, edges ASSERT, action FREEZE, 20 ms, its debounced state HIGH. -/
def contact : State :=
  { plain with rig := { plain.rig with lines := plain.rig.lines.set 1 ⟨.low, .assertion, .freeze, 20⟩ } }.setLine 1
    ⟨.high, some .high, none⟩

/-- 8.9: the contact closes, bounces, and settles. -/
theorem test_contact :
    let s := after (.lineInputChange 1 .low) contact
    let u := after (.debounceTimerExpiry 1) s
    (s.line 1).timer = some ⟨.low, 20⟩ ∧ ((after (.lineInputChange 1 .high) s).line 1).timer = none ∧
      u.frozen = true ∧ u.ports.c.notices.lineEdge.get 1 = true ∧ (after .fadeTick u).runList.map (·.clock) = [10000] ∧
      codeOn .a (after (.go .a 7 [1, 2, 0, 20]) u) = some .heldByLine := by decide +kernel

theorem test_line_setup :
    (after (.lineSetup .a 7 [4, 1, 3, 2, 4, 5]) plain).rig.lines.get 3 = ⟨.high, .both, .look 3, 10⟩ := by decide +kernel

theorem test_look_set :
    (after (.lookSet .a 7 [2, 3, 2, 0, 9, 0, 1, 0, 3, 0, 2]) plain).rig.looks.get 1 = ⟨3, [⟨2, 2⟩, ⟨8, 1⟩]⟩ ∧
      codeOn .a (after (.lookSet .a 7 [2, 4, 0]) plain) = some .badField := by decide +kernel

theorem test_look_raise_and_lower :
    (after (.lookRaise .a 7 [2]) plain).raised 1 = true ∧ codeOn .b (after (.lookLower .b 7 [2]) plain) = some .notLead := by decide +kernel

/-! ## The worked merge (section 9.10) -/

/-- The channel records, masters, feeders, park, look and profiles of 9.10. -/
def merging : State :=
  let row (a b : Nat) : Table 512 ChannelRecord := ((Table.fill 512 ⟨0, none⟩).set 11 ⟨a, none⟩).set 39 ⟨b, none⟩
  { plain with
    runList := []
    grand := 52428
    playbacks := (Table.fill 4 Playback.cold).set 0 { Playback.cold with master := 49152 }
    channels := (((Table.fill 4 (row 0 0)).set 0 (row 40000 0)).set 1 (row 20000 0)).set 2 (row 0 18750)
    liveMap := ((((Table.fill 768 []).set 100 [⟨11, 100⟩]).set 101 [⟨11, 50⟩, ⟨39, 100⟩]).set 103 [⟨11, 100⟩]).set 104 [⟨39, 100⟩]
    parks := [⟨103, 30000, none, .c⟩]
    deskRaised := plain.deskRaised.set 1 true
    rig := { plain.rig with
      looks := plain.rig.looks.set 1 ⟨0, [⟨104, 50000⟩]⟩
      profiles := ((plain.rig.profiles.set 100 ⟨0, 0, 1000, 60000⟩).set 101 ⟨0, 1, 2000, 65535⟩).set 102 ⟨0, 0, 2000, 65535⟩ }
    racks := lit.racks }

/-- 9.10: the outputs of circuits 101 to 105. -/
theorem test_worked_merge :
    ([100, 101, 102, 103, 104] : List (Fin 768)).map merging.output = [24000, 3489, 2000, 30000, 50000] := by decide +kernel

/-- 9.10 and R187: the 8-bit frame of rack line 1 carries them as 93, 13, 7, 117 and 195, behind the header. -/
theorem test_frame_start :
    (((after (.frameStart 0) merging).rack 0).sent.drop 101).take 5 = [93, 13, 7, 117, 195] := by decide +kernel

theorem test_grand :
    (after (.grand .a 7 [0xCC, 0xCC, 1]) plain).grand = 52428 ∧ (after (.grand .a 7 [0xCC, 0xCC, 1]) plain).blackout = true ∧
      codeOn .a (after (.grand .a 7 [0, 0, 2]) plain) = some .badField := by decide +kernel

theorem test_rack_setup : (after (.rackSetup .a 7 [3, 16, 51]) plain).rig.racks.get 2 = ⟨.bits16, 50⟩ := by decide +kernel

/-! ## The store and restart (section 11.6) -/

/-- 11.6: the item is INVALID from the taking of the SAVE. -/
theorem test_save :
    let s := after (.save .a 7 [1, 0]) { plain with storedRig := ⟨true, RigRecord.default⟩ }
    s.saving = some ⟨.rig, .a⟩ ∧ s.storedRig.valid = false ∧ (s.port .a).head = .timed := by decide +kernel

/-- 11.6: a rig save refuses PROFILE_SET and a further SAVE, not PATCH_SET of a bank. -/
theorem test_save_in_flight :
    let s := { saving .rig with lead := some .b }
    codeOn .b (after (.profileSet .b 7 [0, 101, 0, 0, 0, 0, 0, 0]) s) = some .storeBusy ∧
      codeOn .b (after (.patchSet .b 7 [2, 0, 1, 0, 1, 5]) s) = some .ok ∧
      codeOn .b (after (.save .b 7 [0, 2]) s) = some .storeBusy := by decide +kernel

theorem test_save_end :
    let s := after .saveEnd (saving (.bank 0))
    codeOn .a s = some .ok ∧ s.storedBanks.get 0 = ⟨true, [⟨0, 0, 100⟩]⟩ ∧ s.saving = none := by decide +kernel

theorem test_save_write_failure :
    codeOn .a (after .saveWriteFailure (saving (.bank 0))) = some .storeFault ∧
      ((after .saveWriteFailure (saving (.bank 0))).storedBanks.get 0).valid = false := by decide +kernel

/-- 11.6: a save cut by a dip is reported by SAVE_LOST beside RESTARTED(DIP). -/
theorem test_dip_restart :
    let s := after .dipRestart (after .supplyDip (saving (.bank 1)))
    s.power = .running ∧ s.saving = none ∧ (s.storedBanks.get 1).valid = false ∧ s.ports.b.notices.saveLost = true ∧
      s.ports.b.notices.restarted = some .dip ∧ (s.port .a).queue = [] := by decide +kernel

/-- R180: the RESET line pulsed within a dip leaves no trace at the recovery. -/
theorem test_reset_pulse_in_a_dip :
    let s := saving (.bank 1)
    let u := after .dipRestart (after .coldStart (after .resetAssert (after .supplyDip s)))
    u = after .dipRestart (after .supplyDip s) ∧ u.power = .running ∧ u.lead = s.lead := by decide +kernel

/-- R180: the RESET line low at the recovery holds the part in reset, and its release brings the cold start. -/
theorem test_reset_low_at_recovery :
    let s := after .dipRestart (after .resetAssert (after .supplyDip { plain with lead := some .a }))
    s.power = .held ∧ (after .coldStart s).power = .running ∧ (after .coldStart s).lead = none := by decide +kernel

/-- 11.6: RESET and the cold start after it; bank 2 is INVALID, so it loads as empty and BANK_LOST is added. -/
theorem test_reset_and_cold_start :
    let s := { plain with
      storedBanks := (Table.fill 4 ⟨true, [⟨5, 6, 7⟩]⟩).set 1 ⟨false, []⟩
      storedRig := ⟨true, { RigRecord.default with startBank := 2 }⟩ }
    let u := after .coldStart (after .resetAssert s)
    (after .resetAssert s).power = .held ∧ u.bank 0 = [⟨5, 6, 7⟩] ∧ u.bank 1 = [] ∧ u.liveBank = 2 ∧
      u.ports.a.notices = { bankLost := true } ∧ u.rebuild = some ⟨2, none, true⟩ := by decide +kernel

end Sys2Proof.Tests
end

/-! Proofs: fills. -/
section
namespace Sys2Proof.Machine

variable (s : State)

/-! ### Fill records after writes (R4) -/

@[simp] theorem State.slot_setFill (d : Desk) (f : Option Fill) (t : Fin 32) : (s.setFill d f).slot t = s.slot t := rfl

@[simp] theorem State.fill_setSlot (t : Fin 32) (x : Slot) (d : Desk) : (s.setSlot t x).fill d = s.fill d := rfl

theorem State.fill_setFill (d e : Desk) (f : Option Fill) : (s.setFill d f).fill e = if d = e then f else s.fill e := by
  cases d <;> cases e <;> rfl

@[simp] theorem State.fill_setFill_self (d : Desk) (f : Option Fill) : (s.setFill d f).fill d = f := by
  cases d <;> rfl

theorem fillAfterEmpty_eq (t : Fin 32) (f : Option Fill) :
    fillAfterEmpty t f = f.bind fun f => if f.slot = t then none else some f := by
  cases f <;> rfl

theorem fillAfterReplace_eq (t : Fin 32) (cue : Nat) (f : Option Fill) :
    fillAfterReplace t cue f = f.bind fun f => if f.slot = t ∧ f.mode ≠ .absorbing cue then none else some f := by
  cases f <;> rfl

theorem State.fill_emptySlot (t : Fin 32) (e : Desk) : (s.emptySlot t).fill e = fillAfterEmpty t (s.fill e) := by
  cases e <;> rfl

theorem State.slot_emptySlot (t u : Fin 32) : (s.emptySlot t).slot u = if u = t then .empty else s.slot u := by
  simp only [State.slot, State.emptySlot_slots, Table.get_set, eq_comm]

theorem State.fill_startFill (d e : Desk) (t : Fin 32) (h : CueHeader) :
    (s.startFill d t h).fill e = if e = d then some ⟨t, .filling⟩ else fillAfterReplace t h.cue (s.fill e) := by
  cases d <;> cases e <;> rfl

theorem State.slot_startFill (d : Desk) (t u : Fin 32) (h : CueHeader) :
    (s.startFill d t h).slot u = if u = t then .filling h [] d else s.slot u := by
  simp only [State.slot, State.startFill_slots, Table.get_set, eq_comm]

/-- What ending a fill does, by what the desk's fill record holds (R7, R19). -/
theorem State.endFill_cases (d : Desk) :
    (∃ t, s.fill d = some ⟨t, .filling⟩ ∧ s.endFill d = (s.emptySlot t).setFill d none) ∨
    ((∀ t, s.fill d ≠ some ⟨t, .filling⟩) ∧ s.endFill d = s.setFill d none) := by
  unfold State.endFill
  split
  · next t h => exact .inl ⟨t, h, rfl⟩
  · next h => exact .inr ⟨by simp [h], rfl⟩
  · next h =>
    refine .inr ⟨by simp [h], ?_⟩
    rw [← h]
    cases d <;> rfl

@[simp] theorem State.fill_endFill (d : Desk) : (s.endFill d).fill d = none := by
  obtain ⟨t, -, h⟩ | ⟨-, h⟩ := s.endFill_cases d <;> simp [h]

/-- The parts of the state that the fills can touch: the slots, and of each desk link's port the fill record. -/
def FillsOnly (s t : State) : Prop :=
  (∀ l, t.port l = { s.port l with fill := (t.port l).fill }) ∧ (t.port .c).fill = (s.port .c).fill ∧
    t = { s with ports := t.ports, slots := t.slots }

theorem State.setFill_only (d : Desk) (f : Option Fill) : FillsOnly s (s.setFill d f) := by
  cases d <;> exact ⟨fun l => by cases l <;> rfl, rfl, rfl⟩

theorem State.emptySlot_only (t : Fin 32) : FillsOnly s (s.emptySlot t) := ⟨fun l => by cases l <;> rfl, rfl, rfl⟩

theorem State.startFill_only (d : Desk) (t : Fin 32) (h : CueHeader) : FillsOnly s (s.startFill d t h) := by
  cases d <;> exact ⟨fun l => by cases l <;> rfl, rfl, rfl⟩

theorem State.endFill_only (d : Desk) : FillsOnly s (s.endFill d) := by
  obtain ⟨t, -, h⟩ | ⟨-, h⟩ := s.endFill_cases d <;> rw [h]
  · cases d <;> exact ⟨fun l => by cases l <;> rfl, rfl, rfl⟩
  · exact s.setFill_only d none

/-- Settles O19, by the one equation of each operation on the fill records. -/
theorem fillsFollowTheirSlots : Obligations.FillsFollowTheirSlots := by
  intro s d t
  refine ⟨fun h => ?_, ?_, ?_⟩
  · have other : otherDesk d ≠ d := by cases d <;> decide
    exact ⟨fun u => s.slot_startFill d t u h, by simp [State.fill_startFill],
      by rw [State.fill_startFill, if_neg other, fillAfterReplace_eq], s.startFill_only d t h⟩
  · exact ⟨s.slot_emptySlot t, fun e => by rw [State.fill_emptySlot, fillAfterEmpty_eq], s.emptySlot_only t⟩
  · have other : d ≠ otherDesk d := by cases d <;> decide
    refine ⟨s.fill_endFill d, fun u hu => ?_, fun hn => ?_, s.endFill_only d⟩
    all_goals
      obtain ⟨x, hx, he⟩ | ⟨hx, he⟩ := s.endFill_cases d
    · obtain rfl : x = u := by simpa [hu] using hx.symm
      rw [he, State.fill_setFill, if_neg other]
      exact ⟨rfl, rfl⟩
    · exact absurd hu (hx u)
    · exact absurd hx (hn x)
    · rw [he, State.fill_setFill, if_neg other]
      exact ⟨rfl, rfl⟩

end Sys2Proof.Machine
end

section
namespace Sys2Proof.Machine

variable (s : State)

/-! ### Request rows of a desk -/

/-- A desk link leads exactly while the lead is its desk (R162). -/
theorem State.role_lead_iff {l : Link} {d : Desk} (h : deskOf l = some d) : s.role l = .lead ↔ s.lead = some d := by
  unfold State.role
  rw [h]
  dsimp only
  split <;> simp [*]

@[simp] theorem settle_ite (l : Link) (p : Prop) [Decidable p] (v w : Verdict) :
    settle l (if p then v else w) = if p then settle l v else settle l w := by split <;> rfl


/-! ### CUE_OPEN (R6 to R14) -/

/-- The follow of a CUE_OPEN is refused exactly when its slot lies above 31 (R6). -/
theorem CueOpenFields.readFollow_eq_none (f : CueOpenFields) :
    f.readFollow = none ↔ f.follow.any (fun x => 31 < x.1) = true := by
  unfold CueOpenFields.readFollow
  rcases f.follow with _ | ⟨t, n⟩
  · simp
  · simp [indexed_eq_none]
    omega

/-- A follow within range is read with its time held to 9999 (R6). -/
theorem CueOpenFields.readFollow_eq_some (f : CueOpenFields) (follow : Option CueFollow) :
    f.readFollow = some follow ↔
      f.follow.map (fun x => (x.1, min x.2 9999)) = follow.map (fun x => (x.slot.val, x.tenths)) := by
  unfold CueOpenFields.readFollow
  rcases f.follow with _ | ⟨t, n⟩
  · cases follow <;> simp
  · rcases follow with _ | ⟨u, m⟩
    · simp
    · simp only [Option.map_eq_some_iff, indexed_eq_some, Option.map_some, Option.some.injEq, Prod.mk.injEq,
        CueFollow.mk.injEq]
      constructor
      · rintro ⟨a, rfl, rfl, rfl⟩; exact ⟨rfl, rfl⟩
      · rintro ⟨rfl, rfl⟩; exact ⟨u, rfl, rfl, rfl⟩

theorem tenthsOver_iff (n : Nat) : tenthsOver n = true ↔ 9999 < n := decide_eq_true_iff

/-- The code of a taken CUE_OPEN: OK unless a time was held to 9999 (R6). -/
theorem CueOpenFields.code_eq (f : CueOpenFields) :
    okOr f.clamped = if f.upTime ≤ 9999 ∧ f.downTime ≤ 9999 ∧ f.upDelay ≤ 9999 ∧ f.downDelay ≤ 9999 ∧
      (f.follow.all fun x => x.2 ≤ 9999) = true then .ok else .clamped := by
  have hc : f.clamped = true ↔ ¬ (f.upTime ≤ 9999 ∧ f.downTime ≤ 9999 ∧ f.upDelay ≤ 9999 ∧ f.downDelay ≤ 9999 ∧
      (f.follow.all fun x => x.2 ≤ 9999) = true) := by
    unfold CueOpenFields.clamped
    rcases f.follow with _ | ⟨t, n⟩ <;>
      simp only [tenthsOver_iff, Bool.or_eq_true, decide_eq_true_eq, Option.all_none, Option.all_some,
        Bool.false_eq_true, or_false, and_true] <;> omega
  unfold okOr
  by_cases h : f.clamped = true
  · rw [if_pos h, if_neg (hc.1 h)]
  · rw [if_neg h, if_pos (not_not.1 (mt hc.2 h))]

theorem settle_replaceSlot (l : Link) (d : Desk) (t : Fin 32) (h : CueHeader) (displaced : Nat) (code : ResultCode) :
    settle l (replaceSlot d t h displaced code s) =
      if 4096 - s.reservedMoves + displaced < h.declared then s.answered l .storeFull
      else (s.startFill d t h).answered l code := by
  unfold replaceSlot
  rw [settle_ite]
  rfl

/-- What a CUE_OPEN that has passed the field checks does, by the state of its slot (R8 to R13). -/
theorem settle_openSlot (l : Link) (d : Desk) (lead : Prop) [Decidable lead] (t : Fin 32) (h : CueHeader)
    (code : ResultCode) :
    let replace (v : State) (displaced : Nat) : State :=
      if 4096 - v.reservedMoves + displaced < h.declared then v.answered l .storeFull
      else (v.startFill d t h).answered l code
    let absorbed (cue : Nat) : State := (s.setFill d (some ⟨t, .absorbing cue⟩)).answered l .echo
    let diverged (displaced : Nat) : State :=
      if lead then replace (s.notifyDesks .diverged) displaced
      else (s.notifyDesks .diverged).answered l .notLead
    settle l (openSlot d lead t h code s) = match s.slot t with
      | .empty => replace s 0
      | .ready old _ =>
        if old.cue ≠ h.cue then diverged old.declared
        else if lead then replace s old.declared else absorbed old.cue
      | .filling old _ _ => if old.cue ≠ h.cue then diverged old.declared else absorbed old.cue
      | .running old _ => if old.cue = h.cue ∧ ¬ lead then absorbed old.cue else s.answered l .slotRunning := by
  unfold openSlot
  rcases s.slot t with _ | ⟨old, ms, w⟩ | ⟨old, ms⟩ | ⟨old, ms⟩
  · exact settle_replaceSlot s l d t h 0 code
  · by_cases hc : old.cue = h.cue <;> by_cases hl : lead <;>
      simp [hc, hl, divergedOpen, settle_replaceSlot, absorb]
  · by_cases hc : old.cue = h.cue <;> by_cases hl : lead <;>
      simp [hc, hl, divergedOpen, settle_replaceSlot, absorb]
  · by_cases hc : old.cue = h.cue <;> by_cases hl : lead <;> simp [hc, hl, absorb]

/-- Settles O18: the field checks, then `settle_openSlot` on the state in which the sender's own fill has ended. -/
theorem cueOpenFollowsItsTable : Obligations.CueOpenFollowsItsTable := by
  intro s l tag body f hf hh
  have row : exec (.cueOpen l tag body) s = .next (settle l (decideCueOpen l body (s.role l) s)) :=
    congrArg Host.Outcome.next (requestRow_atHead _ hh)
  refine ⟨fun hd => ?_, fun d hd => ⟨fun bad => ?_, fun t follow ht h1 h2 h3 h4 hfo => ?_⟩⟩
  · rw [row]
    simp [decideCueOpen, hf, hd]
  · rw [row]
    simp only [decideCueOpen, hf, hd]
    split
    · next t follow ht hfo =>
      have slot_ok : ¬ 31 < f.slot := by have := indexed_eq_some.1 ht; omega
      have follow_ok : ¬ f.follow.any (fun x => 31 < x.1) = true := by
        rw [← f.readFollow_eq_none, hfo]; simp
      rw [if_pos (by simp only [Config.lastCue, Config.declaredMoves]; tauto)]
      rfl
    · rfl
  · rw [row]
    have range : ¬ (f.cue = 0 ∨ Config.lastCue < f.cue ∨ f.declared = 0 ∨ Config.declaredMoves < f.declared) := by
      simp only [Config.lastCue, Config.declaredMoves]; omega
    simp only [decideCueOpen, hf, hd, indexed_eq_some.2 ht, (f.readFollow_eq_some follow).2 hfo, if_neg range,
      f.code_eq, s.role_lead_iff hd]
    exact congrArg _ (settle_openSlot (s.endFill d) l d (s.lead = some d) t (f.header follow) _)

end Sys2Proof.Machine
end

section
namespace Sys2Proof.Machine

variable (s : State)

/-! ### CUE_MOVES, CUE_CLOSE and CUE_DROP (R15, R16, R18) -/

/-- A desk absorbs a slot exactly when its fill record names that slot in another mode than FILLING (R14). -/
theorem absorbing_eq (d : Desk) (t : Nat) :
    absorbing s d t = (s.fill d).any (fun f => f.slot.val = t && f.mode ≠ .filling) := by
  unfold absorbing
  rcases s.fill d with _ | ⟨u, _ | cue⟩ <;> simp

/-- A batch repeats a channel exactly when it names one twice itself or one that a held move names (R15). -/
theorem channelTwice_iff (held ms : List Move) :
    channelTwice held ms = true ↔
      ¬ (ms.map (·.channel)).Nodup ∨ ∃ m ∈ ms, ∃ x ∈ held, x.channel = m.channel := by
  induction ms with
  | nil => simp [channelTwice]
  | cons m rest ih =>
    have head : ((held ++ rest).any fun x => x.channel = m.channel) = true ↔
        (∃ x ∈ held, x.channel = m.channel) ∨ m.channel ∈ rest.map (·.channel) := by
      simp only [List.any_append, Bool.or_eq_true, List.any_eq_true, decide_eq_true_eq, List.mem_map]
    simp only [channelTwice, Bool.or_eq_true, head, ih, List.map_cons, List.nodup_cons, List.exists_mem_cons_iff,
      not_and_or, not_not]
    exact (or_congr_left or_comm).trans or_or_or_comm

/-- The code of a taken CUE_MOVES: OK unless an own time or own delay was held to 9999 (R15). -/
theorem okOr_movesClamped (batch : List MoveFields) :
    okOr (movesClamped batch) =
      if batch.all (fun m => m.ownTime.all (· ≤ 9999) && m.ownDelay.all (· ≤ 9999)) then .ok else .clamped := by
  have all_tenths (o : Option Nat) : o.all (· ≤ 9999) = !o.any tenthsOver := by
    rcases o with _ | n
    · rfl
    · by_cases h : n ≤ 9999
      · simp [h, mt (tenthsOver_iff n).1 (by omega)]
      · simp [h, (tenthsOver_iff n).2 (by omega)]
  have all_eq : batch.all (fun m => m.ownTime.all (· ≤ 9999) && m.ownDelay.all (· ≤ 9999)) = !movesClamped batch := by
    rw [movesClamped, List.not_any_eq_all_not]
    congr 1
    funext m
    rw [all_tenths, all_tenths, Bool.not_or]
  rw [all_eq]
  cases movesClamped batch <;> rfl

/-- Settles O20, following the checks of R15. -/
theorem cueMovesFollowsItsChecks : Obligations.CueMovesFollowsItsChecks := by
  intro s l tag body slot batch hb hh
  refine congrArg Host.Outcome.next ((requestRow_atHead _ hh).trans ?_)
  rcases hd : deskOf l with _ | d
  · simp [decideCueMoves, hb, hd]
  simp only [decideCueMoves, hb, hd, absorbing_eq, settle_ite, settle_answer]
  congr 1
  rcases indexed 32 slot with _ | t
  · rfl
  rcases checkMoves batch with _ | ms
  · rfl
  simp only [settle_ite, settle_answer, List.length_eq_zero_iff]
  congr 1
  rcases s.slot t with _ | ⟨h, held, filler⟩ | _ | _
  case filling => simp only [settle_ite, settle_answer, channelTwice_iff, okOr_movesClamped]
  all_goals rfl

/-- Settles O21: the absorbed fill, the sender's own fill and every other slot state, for each row. -/
theorem cueCloseAndDropFollowTheirRules : Obligations.CueCloseAndDropFollowTheirRules := by
  intro s l tag x
  refine ⟨fun hh => ?_, fun hh => ?_⟩ <;>
    refine congrArg Host.Outcome.next ((requestRow_atHead _ hh).trans ?_)
  · rcases hd : deskOf l with _ | d
    · simp [decideCueClose, readByte, hd]
    simp only [decideCueClose, readByte, hd, absorbing_eq, settle_ite, settle_answer]
    congr 1
    rcases indexed 32 x.toNat with _ | t
    · rfl
    rcases hs : s.slot t with _ | ⟨h, held, filler⟩ | _ | _
    case some.filling => simp only [hs, settle_ite, settle_answer]
    all_goals simp only [hs, settle_answer]
  · rcases hd : deskOf l with _ | d
    · simp [decideCueDrop, readByte, hd]
    simp only [decideCueDrop, readByte, hd, s.role_lead_iff hd]
    rcases indexed 32 x.toNat with _ | t
    · rfl
    rcases hs : s.slot t with _ | ⟨h, held, filler⟩ | _ | _ <;> by_cases hl : s.lead = some d <;>
      simp [hs, hl]

end Sys2Proof.Machine
end

section
namespace Sys2Proof.Machine

/-! ### What a step can do to the cue store and the fade engine -/

/-- `t` stands where `s` stood in the cue store and the engine: slots, fill records, channels and run list are the same, a stack
can only have lost entries, a master or the grand master set anew is a level, and a frame sent anew holds levels as far
as the rig record `r` keeps its outputs within the range. -/
structure Calm (r : RigRecord) (s t : State) : Prop where
  slots : t.slots = s.slots
  fills : ∀ l, (t.port l).fill = (s.port l).fill
  channels : t.channels = s.channels
  runList : t.runList = s.runList
  births : t.births = s.births
  stack_mem : ∀ p, ∀ x ∈ (t.playback p).stack, x ∈ (s.playback p).stack
  masters : ∀ p, (t.playback p).master = (s.playback p).master ∨ (t.playback p).master ≤ Config.full
  grand : t.grand = s.grand ∨ t.grand ≤ Config.full
  frames : ∀ k f, (t.rack k).last = some f →
    (s.rack k).last = some f ∨ (r.Legal → ∀ v ∈ f.levels.cells, v ≤ Config.full)

variable {r : RigRecord} {s t u : State}

theorem Calm.refl (r : RigRecord) (s : State) : Calm r s s :=
  ⟨rfl, fun _ => rfl, rfl, rfl, rfl, fun _ _ h => h, fun _ => .inl rfl, .inl rfl, fun _ _ h => .inl h⟩

theorem Calm.trans (h : Calm r s t) (k : Calm r t u) : Calm r s u where
  slots := k.slots.trans h.slots
  fills l := (k.fills l).trans (h.fills l)
  channels := k.channels.trans h.channels
  runList := k.runList.trans h.runList
  births := k.births.trans h.births
  stack_mem p x hx := h.stack_mem p x (k.stack_mem p x hx)
  masters p := (k.masters p).elim (fun e => e ▸ h.masters p) .inr
  grand := k.grand.elim (fun e => e ▸ h.grand) .inr
  frames n f hf := (k.frames n f hf).elim (h.frames n f) .inr

/-- A change outside the cue store, the engine, the masters and the frames. -/
theorem Calm.outside (h : t = { s with
      power := t.power, ports := t.ports, lead := t.lead, banks := t.banks, liveBank := t.liveBank, liveMap := t.liveMap,
      rebuild := t.rebuild, rig := t.rig, lawFaults := t.lawFaults, parks := t.parks, stage := t.stage,
      deskRaised := t.deskRaised, blackout := t.blackout, storedBanks := t.storedBanks, storedRig := t.storedRig,
      saving := t.saving, pending := t.pending })
    (hf : ∀ l, (t.port l).fill = (s.port l).fill) : Calm r s t := by
  obtain ⟨_, _, _, _, _, _, _, _, _, _, _, _, _, _, _, _, _, _, _, _, _, _, _, _⟩ := t
  cases h
  exact ⟨rfl, hf, rfl, rfl, rfl, fun _ _ h => h, fun _ => .inl rfl, .inl rfl, fun _ _ h => .inl h⟩

theorem Calm.modPort (l : Link) (f : Port → Port) (hf : ∀ p, (f p).fill = p.fill) : Calm r s (s.modPort l f) := by
  refine .outside rfl fun m => ?_
  rw [State.port_modPort]
  split
  · exact hf _
  · rfl

theorem Port.notify_fill (n : Notice) (p : Port) : (p.notify n).fill = p.fill := rfl

theorem Calm.notifyAll (n : Notice) : Calm r s (s.notifyAll n) :=
  .outside rfl fun l => by rw [State.port_notifyAll]; rfl

theorem Calm.notifyDesks (n : Notice) : Calm r s (s.notifyDesks n) :=
  Calm.trans (t := s.notify .a n) (.modPort .a _ (Port.notify_fill n)) (.modPort .b _ (Port.notify_fill n))

theorem Calm.arrive (l : Link) (q : Request) : Calm r s (s.arrive l q) := by
  refine .modPort l _ fun p => ?_
  dsimp only
  split <;> rfl

theorem Calm.receive (l : Link) (q : Request) : Calm r s (s.receive l q) :=
  Calm.trans (t := s.modPort l fun p => { p with receiver := .hunting }) (.modPort l _ fun _ => rfl) (.arrive l q)

theorem Calm.answerHead (l : Link) (code : ResultCode) (body : List Byte) (x : Notices) :
    Calm r s (s.answerHead l code body x) := by
  refine .modPort l _ fun p => ?_
  split <;> rfl

theorem Calm.answerTimed (d : Desk) (code : ResultCode) : Calm r s (s.answerTimed d code) := by
  unfold State.answerTimed
  split
  · exact .answerHead _ _ _ _
  · exact .refl r s

theorem Calm.modPlayback (p : Fin 4) (f : Playback → Playback) (hs : ∀ x : Playback, ∀ e ∈ (f x).stack, e ∈ x.stack)
    (hm : ∀ x : Playback, (f x).master = x.master ∨ (f x).master ≤ Config.full) : Calm r s (s.modPlayback p f) where
  slots := rfl
  fills _ := rfl
  channels := rfl
  runList := rfl
  births := rfl
  stack_mem q x hx := by
    rw [State.playback_modPlayback] at hx
    split at hx
    · next h => exact h ▸ hs _ x hx
    · exact hx
  masters q := by
    rw [State.playback_modPlayback]
    split
    · next h => exact h ▸ hm _
    · exact .inl rfl
  grand := .inl rfl
  frames _ _ h := .inl h

theorem Calm.whileRunning (h : Calm r s t) : Calm r s (whileRunning s t) := by
  unfold Machine.whileRunning
  split
  · exact h
  · exact .refl r s

/-! ### Decisions -/

/-- The state a verdict leaves before the head of the queue is brought to it. -/
def Verdict.state : Verdict → State
  | .reply _ _ _ s => s
  | .hold s => s

@[simp] theorem answer_state (code : ResultCode) (s : State) : (answer code s).state = s := rfl

/-- A verdict that refuses or is taken leaves the state as it was or as the taken one has it (R171). -/
theorem refuseFirst_state (checks : List (Bool × ResultCode)) (s : State) (taken : Verdict) :
    (refuseFirst checks s taken).state = s ∨
      (refuseFirst checks s taken = taken ∧ ∀ c ∈ checks, c.1 = false) := by
  unfold refuseFirst
  split
  · exact .inl rfl
  · next h => exact .inr ⟨rfl, by simpa using h⟩

theorem Calm.refuseFirst (checks : List (Bool × ResultCode)) {taken : Verdict} (h : Calm r s taken.state) :
    Calm r s (refuseFirst checks s taken).state := by
  obtain e | ⟨e, -⟩ := refuseFirst_state checks s taken <;> rw [e]
  · exact .refl r s
  · exact h

/-- A settled verdict is its state but for the head of its link's queue. -/
theorem Calm.settle (l : Link) (v : Verdict) : Calm r v.state (settle l v) := by
  cases v with
  | reply code body carried s => exact .answerHead l code body carried
  | hold s => exact .modPort l (fun p => { p with head := .timed }) fun _ => rfl

section
variable (l : Link) (body : List Byte) (role : Role) (s : State)

theorem decideStatus_calm : Calm r s (decideStatus l body role s).state := by
  unfold decideStatus
  split <;> exact .refl r s

theorem decideRead_calm : Calm r s (decideRead l body role s).state := by
  unfold decideRead
  repeat' split
  all_goals exact .refl r s

theorem decideTakeLead_calm : Calm r s (decideTakeLead l body role s).state := by
  unfold decideTakeLead
  have lead (d : Option Desk) : Calm r s (s.setLead d) := .outside rfl fun _ => rfl
  repeat' split
  any_goals exact .refl r s
  · exact lead _
  · exact (lead _).trans (.notifyDesks _)

theorem decideYieldLead_calm : Calm r s (decideYieldLead l body role s).state := by
  unfold decideYieldLead
  repeat' split
  any_goals exact .refl r s
  · exact .outside rfl fun _ => rfl

/-- A new rig record alone. -/
theorem Calm.setRig (x : RigRecord) : Calm r s (s.setRig x) := .outside rfl fun _ => rfl

theorem Port.restartMonitor_fill (ms : Nat) (p : Port) : (p.restartMonitor ms).fill = p.fill := by
  unfold Port.restartMonitor
  split <;> rfl

theorem Calm.restartMonitors : Calm r s s.restartMonitors :=
  .outside rfl fun l => by cases l <;> exact Port.restartMonitor_fill _ _

theorem decideLinkSetup_calm : Calm r s (decideLinkSetup l body role s).state := by
  unfold decideLinkSetup
  repeat' split
  any_goals exact .refl r s
  · exact .refuseFirst _ ((Calm.setRig s _).trans (.restartMonitors _))

theorem Calm.setHolds (ps : List (Fin 4)) (b : Bool) : Calm r s (s.setHolds ps b) := by
  unfold State.setHolds
  induction ps generalizing s with
  | nil => exact .refl r s
  | cons p ps ih =>
    exact Calm.trans (t := s.modPlayback p fun x => { x with held := b })
      (.modPlayback p _ (fun _ _ h => h) fun _ => .inl rfl) (ih _)

theorem decideHolds_calm (b : Bool) : Calm r s (decideHolds b l body role s).state := by
  unfold decideHolds
  repeat' split
  any_goals exact .refl r s
  · exact .setHolds _ _ _

theorem decideRate_calm : Calm r s (decideRate l body role s).state := by
  unfold decideRate
  repeat' split
  any_goals exact .refl r s
  · rw [answer_state]
    exact .modPlayback _ _ (fun _ _ h => h) fun _ => .inl rfl

/-- A two-byte field holds a level. -/
theorem be16_le_full (a b : Byte) : be16 a b ≤ Config.full := Nat.le_of_lt_succ (be16_lt a b)

theorem readByteWord_level {k v : Nat} (h : readByteWord body = some (k, v)) : v ≤ Config.full := by
  unfold readByteWord at h
  split at h
  · cases h; exact be16_le_full _ _
  · cases h

theorem readWordByte_level {v : Nat} {x : Byte} (h : readWordByte body = some (v, x)) : v ≤ Config.full := by
  unfold readWordByte at h
  split at h
  · cases h; exact be16_le_full _ _
  · cases h

theorem decidePbLevel_calm : Calm r s (decidePbLevel l body role s).state := by
  unfold decidePbLevel
  repeat' split
  any_goals exact .refl r s
  · rw [answer_state]
    have level_le := readByteWord_level body ‹_›
    exact .modPlayback _ _ (fun _ _ h => h) fun _ => .inr level_le

theorem decidePlaybackSetup_calm : Calm r s (decidePlaybackSetup l body role s).state := by
  unfold decidePlaybackSetup
  repeat' split
  any_goals exact .refl r s
  · exact .refuseFirst _ (.setRig s _)

theorem decidePatchSet_calm : Calm r s (decidePatchSet l body role s).state := by
  unfold decidePatchSet
  repeat' split
  any_goals exact .refl r s
  · refine .refuseFirst _ ?_
    show Calm r s (State.patch _ _ _ _ _)
    unfold State.patch
    dsimp only
    split <;> exact .outside rfl fun _ => rfl

theorem decideBankClear_calm : Calm r s (decideBankClear l body role s).state := by
  unfold decideBankClear
  repeat' split
  any_goals exact .refl r s
  · exact .refuseFirst _ (.outside rfl fun _ => rfl)

theorem decideBankCopy_calm : Calm r s (decideBankCopy l body role s).state := by
  unfold decideBankCopy
  repeat' split
  any_goals exact .refl r s
  · exact .refuseFirst _ (.outside rfl fun _ => rfl)

theorem decideBankSelect_calm : Calm r s (decideBankSelect l body role s).state := by
  unfold decideBankSelect
  repeat' split
  any_goals exact .refl r s
  · exact .refuseFirst _ (.outside rfl fun _ => rfl)

theorem decideStartBank_calm : Calm r s (decideStartBank l body role s).state := by
  unfold decideStartBank
  repeat' split
  any_goals exact .refl r s
  · exact .refuseFirst _ (.setRig s _)

theorem decideProfileSet_calm : Calm r s (decideProfileSet l body role s).state := by
  unfold decideProfileSet
  repeat' split
  any_goals exact .refl r s
  · refine .refuseFirst _ ?_
    show Calm r s (State.setProfile _ _ _)
    unfold State.setProfile
    dsimp only
    split
    · exact Calm.trans (t := s.setProfiles _) (.outside rfl fun _ => rfl) (.notifyAll _)
    · exact .outside rfl fun _ => rfl

theorem decideLawLoad_calm : Calm r s (decideLawLoad l body role s).state := by
  unfold decideLawLoad
  repeat' split
  any_goals exact .refl r s
  · exact .refuseFirst _ (.outside rfl fun _ => rfl)

theorem Calm.setParks (ps : List Park) : Calm r s (s.setParks ps) := .outside rfl fun _ => rfl

theorem setPark_calm (x : Park) (code : ResultCode) : Calm r s (setPark x code s).state := by
  unfold setPark
  repeat' split
  · exact .setParks s _
  · exact .setParks s _
  · exact .refl r s

theorem decidePark_calm : Calm r s (decidePark l body role s).state := by
  unfold decidePark
  repeat' split
  any_goals exact .refl r s
  · exact setPark_calm s _ _

theorem decideFlash_calm : Calm r s (decideFlash l body role s).state := by
  unfold decideFlash
  repeat' split
  any_goals exact .refl r s
  · exact setPark_calm s _ _

theorem decideNudge_calm : Calm r s (decideNudge l body role s).state := by
  unfold decideNudge
  repeat' split
  any_goals exact .refl r s
  · exact .setParks s _

theorem decideUnpark_calm : Calm r s (decideUnpark l body role s).state := by
  unfold decideUnpark
  repeat' split
  any_goals exact .refl r s
  · exact .setParks s _
  · exact .setParks s _

theorem Calm.setLine (n : Fin 4) (x : StageLine) : Calm r s (s.setLine n x) := .outside rfl fun _ => rfl

theorem Calm.edge (n : Fin 4) (before : Bool) : Calm r s (s.edge n before) := by
  unfold State.edge
  split
  · exact .notifyAll _
  · exact .refl r s

theorem Calm.setupLine (n : Fin 4) (x : LineSettings) : Calm r s (s.setupLine n x) := by
  unfold State.setupLine
  dsimp only
  refine Calm.trans ?_ (.edge _ n _)
  split
  · exact .setRig s _
  · exact (Calm.setRig s _).trans (.setLine _ n _)

theorem decideLineSetup_calm : Calm r s (decideLineSetup l body role s).state := by
  unfold decideLineSetup
  repeat' split
  any_goals exact .refl r s
  · exact .refuseFirst _ (.setupLine s _ _)

theorem decideLookSet_calm : Calm r s (decideLookSet l body role s).state := by
  unfold decideLookSet
  repeat' split
  any_goals exact .refl r s
  · exact .refuseFirst _ (.setRig s _)

theorem decideRaise_calm (b : Bool) : Calm r s (decideRaise b l body role s).state := by
  unfold decideRaise
  repeat' split
  any_goals exact .refl r s
  · exact .outside rfl fun _ => rfl

theorem decideGrand_calm : Calm r s (decideGrand l body role s).state := by
  unfold decideGrand
  repeat' split
  any_goals exact .refl r s
  · exact { Calm.refl r s with grand := .inr (readWordByte_level body ‹_›) }

theorem decideRackSetup_calm : Calm r s (decideRackSetup l body role s).state := by
  unfold decideRackSetup
  repeat' split
  any_goals exact .refl r s
  · exact .refuseFirst _ (.setRig s _)

theorem Calm.invalidate (c : SaveClass) : Calm r s (s.invalidate c) := by
  cases c <;> exact .outside rfl fun _ => rfl

theorem decideSave_calm : Calm r s (decideSave l body role s).state := by
  unfold decideSave
  repeat' split
  any_goals exact .refl r s
  · exact .refuseFirst _ ((Calm.invalidate s _).trans (.outside rfl fun _ => rfl))

end

end Sys2Proof.Machine
end

section
namespace Sys2Proof.Machine

variable {r : RigRecord} {s t u : State}

/-! ### Events that leave the cue store and the engine alone -/

/-- Every limit of R102 holds a circuit at or below its top-set. -/
theorem profileOutput_le (laws : List Points) (f : Profile) (v : Nat) : profileOutput laws f v ≤ f.topSet := by
  unfold profileOutput
  cases lawOf laws f.page f.index <;> exact Nat.min_le_right _ _

theorem State.output_le (h : s.rig.Legal) (c : Fin 768) : s.output c ≤ Config.full :=
  (profileOutput_le _ _ _).trans (h.profiles c).2.2.2

theorem State.rack_setRack (j k : Fin 3) (x : RackLine) : (s.setRack j x).rack k = if j = k then x else s.rack k :=
  Table.get_set _ _ _ _

/-- The cells of a table are what it reads at its indices. -/
theorem Table.mem_cells {n : Nat} {α : Type} {x : Table n α} {a : α} : a ∈ x.cells ↔ ∃ i, x.get i = a := by
  rw [List.mem_iff_getElem]
  constructor
  · rintro ⟨i, hi, e⟩; exact ⟨⟨i, x.size ▸ hi⟩, e⟩
  · rintro ⟨i, e⟩; exact ⟨i, x.size.symm ▸ i.isLt, e⟩

/-- A frame computed afresh holds levels as far as the rig record is legal. -/
theorem Calm.freshFrame (hr : s.rig = r) (k : Fin 3) : Calm r s (s.freshFrame k) where
  slots := rfl
  fills _ := rfl
  channels := rfl
  runList := rfl
  births := rfl
  stack_mem _ _ h := h
  masters _ := .inl rfl
  grand := .inl rfl
  frames j f h := by
    rw [State.freshFrame, State.rack_setRack] at h
    split at h
    · obtain rfl := Option.some.inj h
      refine .inr fun legal v hv => ?_
      obtain ⟨i, rfl⟩ := Table.mem_cells.1 hv
      rw [State.computeFrame, Table.get_tabulate]
      exact State.output_le (hr ▸ legal) _
    · exact .inl h

theorem Calm.repeatFrame (k : Fin 3) : Calm r s (s.repeatFrame k) :=
  { Calm.refl r s with
    frames := fun j f h => .inl (by
      rw [State.repeatFrame, State.rack_setRack] at h
      split at h
      · next e => subst e; exact h
      · exact h) }

theorem Calm.frameStart (hr : s.rig = r) (k : Fin 3) : Calm r s (s.frameStart k) := by
  unfold State.frameStart
  repeat' split
  · exact .refl r s
  · exact .repeatFrame k
  · exact .freshFrame hr k

theorem Calm.firstFrames (hr : s.rig = r) : Calm r s s.firstFrames :=
  Calm.trans (t := ((s.freshFrame 0).freshFrame 1).freshFrame 2)
    (((Calm.freshFrame hr 0).trans (.freshFrame (s := s.freshFrame 0) hr 1)).trans
      (.freshFrame (s := (s.freshFrame 0).freshFrame 1) hr 2)) (.notifyAll _)

theorem State.answerTimed_rig (d : Desk) (code : ResultCode) : (s.answerTimed d code).rig = s.rig := by
  unfold State.answerTimed
  split <;> rfl

theorem Calm.endRebuild (hr : s.rig = r) : Calm r s s.endRebuild := by
  unfold State.endRebuild
  split
  · exact .refl r s
  · next x _ =>
    dsimp only
    have live : Calm r s { s with liveMap := mapOf (s.bank x.bank), liveBank := x.bank, rebuild := none } :=
      .outside rfl fun _ => rfl
    generalize hv : State.mk .. = v at live ⊢
    have hvr : v.rig = r := by rw [← hv]; exact hr
    clear hv
    rcases x.replyTo with _ | d <;> dsimp only <;> split
    · exact live.trans (.firstFrames hvr)
    · exact live
    · exact (live.trans (.answerTimed d _)).trans (.firstFrames ((State.answerTimed_rig d _).trans hvr))
    · exact live.trans (.answerTimed d _)

theorem Calm.handOn (l : Link) (x : Receiver × List Request) : Calm r s (s.handOn l x) := by
  unfold State.handOn
  refine Calm.trans (t := s.modPort l fun p => { p with receiver := x.1 }) (.modPort l _ fun _ => rfl) ?_
  generalize s.modPort l _ = v
  induction x.2 generalizing v with
  | nil => exact .refl r v
  | cons q qs ih => exact (Calm.arrive l q).trans (ih _)

theorem Port.replySent_fill (p : Port) : p.replySent.fill = p.fill := by
  unfold Port.replySent
  split <;> rfl

theorem Calm.inputChange (n : Fin 4) (v : LineLevel) : Calm r s (s.inputChange n v) := by
  unfold State.inputChange
  dsimp only
  repeat' split
  · exact .refl r s
  · exact .setLine s n _
  · exact .setLine s n _

theorem Calm.debounceExpiry (n : Fin 4) : Calm r s (s.debounceExpiry n) := by
  unfold State.debounceExpiry
  split
  · exact .refl r s
  · exact (Calm.setLine s n _).trans (.edge _ n _)

theorem Calm.storeWorking (c : SaveClass) : Calm r s (s.storeWorking c) := by
  cases c <;> exact .outside rfl fun _ => rfl

theorem Calm.endSaving : Calm r s { s with saving := none } := .outside rfl fun _ => rfl

theorem Calm.saveEnd : Calm r s s.saveEnd := by
  unfold State.saveEnd
  split
  · exact .refl r s
  · exact ((Calm.storeWorking _).trans .endSaving).trans (.answerTimed _ _)

theorem Calm.saveFailure : Calm r s s.saveFailure := by
  unfold State.saveFailure
  split
  · exact .refl r s
  · exact ((Calm.invalidate s _).trans .endSaving).trans (.answerTimed _ _)

theorem Calm.abandonSave : Calm r s s.abandonSave := by
  unfold State.abandonSave
  split
  · exact .refl r s
  · exact ((Calm.invalidate s _).trans .endSaving).trans (.notifyAll _)

/-- New rack lines that keep the last frames. -/
theorem Calm.setRacks (x : Table 3 RackLine) (hx : ∀ k, (x.get k).last = (s.rack k).last) :
    Calm r s { s with racks := x } :=
  { Calm.refl r s with frames := fun k _ h => .inl ((hx k).symm.trans h) }

theorem Calm.setPower (p : Power) : Calm r s { s with power := p } := .outside rfl fun _ => rfl

theorem Calm.dip : Calm r s s.dip :=
  (Calm.setPower (.dipped .high)).trans (Calm.setRacks _ fun k => by rw [Table.get_map]; rfl)

theorem Calm.dipRestart : Calm r s s.dipRestart := by
  unfold State.dipRestart
  dsimp only
  refine Calm.trans (Calm.trans (Calm.trans ?_ (.restartMonitors _)) .abandonSave) (.notifyAll _)
  refine Calm.trans
    (t := { s with racks := Table.tabulate fun k => (s.racks.get k).dipRestart (s.rig.racks.get k).period })
    (.setRacks _ fun k => by rw [Table.get_tabulate]; rfl) (.outside rfl fun l => ?_)
  cases l <;> rfl

theorem Port.fallSilent_fill (p : Port) : p.fallSilent.fill = p.fill := rfl

theorem Calm.setLead (d : Option Desk) : Calm r s (s.setLead d) := .outside rfl fun _ => rfl

theorem Calm.leadSilent (d : Desk) : Calm r s (s.leadSilent d) := by
  unfold State.leadSilent
  repeat' split
  · exact .refl r s
  · exact (Calm.setLead _).trans (.notifyAll _)
  · exact .setLead _

/-! ### One step -/

/-- The cue store and the engine as a cold start and a reset leave them (R5, R21, R23, R140). -/
structure Blank (s : State) : Prop where
  slots : s.slots = Table.fill 32 .empty
  fills : ∀ l, (s.port l).fill = none
  playbacks : s.playbacks = Table.fill 4 Playback.cold
  channels : s.channels = Table.fill 4 (Table.fill 512 ChannelRecord.cold)
  runList : s.runList = []
  grand : s.grand = Config.full
  frames : ∀ k, (s.rack k).last = none

/-- A property of states that everything a step can do to the cue store and the engine keeps: the operations of the loading
requests under the conditions their checks secure, the starts, the clocks, and a change of the rest of the part. -/
structure KeptBySteps (r : RigRecord) (P : State → Prop) : Prop where
  calm : ∀ {s t}, Calm r s t → P s → P t
  blank : ∀ {s}, Blank s → P s
  endFill : ∀ {s} d, P s → P (s.endFill d)
  startFill : ∀ {s} d t h, P s → s.fill d = none → (∀ h ms, s.slot t ≠ .running h ms) → h.Legal →
    h.declared ≤ s.freeMoves + (s.slot t).reserved → P (s.startFill d t h)
  absorb : ∀ {s} d t cue, P s → s.fill d = none → (s.slot t).cue? = some cue →
    P (s.setFill d (some ⟨t, .absorbing cue⟩))
  endAbsorb : ∀ {s} d t cue, P s → s.fill d = some ⟨t, .absorbing cue⟩ → P (s.setFill d none)
  addMoves : ∀ {s} d t h held ms, P s → s.slot t = .filling h held d → (∀ m ∈ ms, m.Legal) →
    channelTwice held ms = false → held.length + ms.length ≤ h.declared → P (s.setSlot t (.filling h (held ++ ms) d))
  close : ∀ {s} d t h held, P s → s.slot t = .filling h held d → held.length = h.declared →
    P ((s.setSlot t (.ready h held)).setFill d none)
  emptySlot : ∀ {s} t, P s → (∀ h ms, s.slot t ≠ .running h ms) → P (s.emptySlot t)
  takeGo : ∀ {s} d p t h ms, P s → s.slot t = .ready h ms → P (s.takeGo d p t h ms)
  takeBack : ∀ {s} d p top rest, P s → (s.playback p).stack = top :: rest → P (s.takeBack d p top rest)
  takeManual : ∀ {s} d p takes, P s → (takes.map (·.channel)).Nodup → (∀ k ∈ takes, k.target ≤ Config.full) →
    P (s.plainStart .manual p (.desk d) takes)
  takeRelease : ∀ {s} d p, P s → P (s.takeRelease d p)
  tick : ∀ {s}, P s → P s.tick
  followDue : ∀ {s} n, P s → P (s.followDue n)

theorem refuseFirst_keeps {P : State → Prop} (checks : List (Bool × ResultCode)) {taken : Verdict} (hs : P s)
    (h : (∀ c ∈ checks, c.1 = false) → P taken.state) : P (refuseFirst checks s taken).state := by
  obtain e | ⟨e, pass⟩ := refuseFirst_state checks s taken <;> rw [e]
  · exact hs
  · exact h pass

theorem whileRunning_keeps {P : State → Prop} (hs : P s) (ht : P t) : P (whileRunning s t) := by
  unfold whileRunning
  split <;> assumption

namespace KeptBySteps
variable {P : State → Prop} (K : KeptBySteps r P)
include K

/-- A request row keeps what its decision keeps. -/
theorem requestRow (l : Link) (q : Request) {decision : Role → State → Verdict} (hs : P s)
    (hd : ∀ {s} role, P s → P (decision role s).state) : P (Machine.requestRow l q decision s) := by
  have arrived := K.calm (.receive l q) hs
  obtain ⟨-, h⟩ | ⟨-, h⟩ | ⟨-, -, h⟩ | ⟨-, -, h⟩ := requestRow_cases s l q decision <;> rw [h]
  · exact hs
  · exact K.calm (.settle l _) (hd _ hs)
  · exact K.calm (.settle l _) (hd _ arrived)
  · exact arrived

theorem openSlot (d : Desk) (lead : Bool) (t : Fin 32) (h : CueHeader) (code : ResultCode) (hs : P s)
    (hd : s.fill d = none) (hh : h.Legal) : P (Machine.openSlot d lead t h code s).state := by
  have replace {v : State} (n : Nat) (hv : P v) (fill : v.fill d = none) (idle : ∀ h ms, v.slot t ≠ .running h ms)
      (hn : n ≤ (v.slot t).reserved) : P (replaceSlot d t h n code v).state := by
    unfold replaceSlot
    split
    · exact hv
    · exact K.startFill d t h hv fill idle hh (by omega)
  have diverged (n : Nat) (idle : ∀ h ms, s.slot t ≠ .running h ms) (hn : n ≤ (s.slot t).reserved) :
      P (divergedOpen d lead t h n code s).state := by
    have hv : P (s.notifyDesks .diverged) := K.calm (.notifyDesks _) hs
    have fill : (s.notifyDesks .diverged).fill d = none := by rw [← hd]; cases d <;> rfl
    unfold divergedOpen
    dsimp only
    split
    · exact replace n hv fill idle hn
    · exact hv
  have absorbed {cue : Nat} (hc : (s.slot t).cue? = some cue) : P (Machine.absorb d t cue s).state :=
    K.absorb d t cue hs hd hc
  unfold Machine.openSlot
  rcases hx : s.slot t with _ | ⟨old, ms, w⟩ | ⟨old, ms⟩ | ⟨old, ms⟩ <;> dsimp only
  · exact replace 0 hs hd (by simp [hx]) (Nat.zero_le _)
  all_goals repeat' split
  · exact absorbed (by rw [hx]; rfl)
  · exact diverged _ (by simp [hx]) (by rw [hx]; rfl)
  · exact replace _ hs hd (by simp [hx]) (by rw [hx]; rfl)
  · exact absorbed (by rw [hx]; rfl)
  · exact diverged _ (by simp [hx]) (by rw [hx]; rfl)
  · exact absorbed (by rw [hx]; rfl)
  · exact hs

end KeptBySteps

end Sys2Proof.Machine
end

section
namespace Sys2Proof.Machine

variable {r : RigRecord} {s t u : State}

/-! ### The values of a body that has passed its checks -/

theorem clampTenths_le (n : Nat) : clampTenths n ≤ Config.lastTenths := Nat.min_le_right _ _

/-- A follow that has been read holds its time to 9999 (R6). -/
theorem CueOpenFields.readFollow_tenths {f : CueOpenFields} {x : CueFollow} (h : f.readFollow = some (some x)) :
    x.tenths ≤ Config.lastTenths := by
  unfold CueOpenFields.readFollow at h
  split at h
  · cases h
  · obtain ⟨i, -, e⟩ := Option.map_eq_some_iff.1 h
    cases e
    exact clampTenths_le _

/-- The header of a CUE_OPEN that has passed the field checks lies within R1. -/
theorem CueOpenFields.header_legal {f : CueOpenFields} {follow : Option CueFollow} (h : f.readFollow = some follow)
    (hr : ¬ (f.cue = 0 ∨ Config.lastCue < f.cue ∨ f.declared = 0 ∨ Config.declaredMoves < f.declared)) :
    (f.header follow).Legal := by
  refine ⟨?_, ?_, ?_, ?_, clampTenths_le _, clampTenths_le _, clampTenths_le _, clampTenths_le _, ?_⟩
  · show 1 ≤ f.cue; omega
  · show f.cue ≤ _; omega
  · show 1 ≤ f.declared; omega
  · show f.declared ≤ _; omega
  · intro x hx
    obtain rfl : follow = some x := hx
    exact readFollow_tenths h

/-- The fields of the moves of a body are levels where R184 gives two bytes. -/
theorem readMoves_target (body : List Byte) : ∀ m ∈ readMoves body, m.target ≤ Config.full := by
  induction body using readMoves.induct with
  | case1 c1 c0 t1 t0 o1 o0 d1 d0 rest ih =>
    rw [readMoves]
    intro m hm
    rcases List.mem_cons.1 hm with rfl | hm
    · exact be16_le_full _ _
    · exact ih m hm
  | case2 body hb =>
    rw [readMoves]
    · simp
    · exact hb

theorem readCueMoves_target {body : List Byte} {slot : Nat} {batch : List MoveFields}
    (h : readCueMoves body = some (slot, batch)) : ∀ m ∈ batch, m.target ≤ Config.full := by
  unfold readCueMoves at h
  split at h
  · split at h
    · cases h; exact readMoves_target _
    · cases h
  · cases h

/-- Moves that have been checked lie within R2. -/
theorem checkMoves_legal {batch : List MoveFields} {ms : List Move} (h : checkMoves batch = some ms)
    (ht : ∀ m ∈ batch, m.target ≤ Config.full) : ∀ m ∈ ms, m.Legal := by
  induction batch generalizing ms with
  | nil => cases h; simp
  | cons x rest ih =>
    unfold checkMoves at h
    split at h
    · next c tail hc hr =>
      cases h
      intro m hm
      rcases List.mem_cons.1 hm with rfl | hm
      · refine ⟨ht x List.mem_cons_self, fun n hn => ?_, fun n hn => ?_⟩
        all_goals
          obtain ⟨k, -, rfl⟩ := Option.mem_map.1 hn
          exact clampTenths_le k
      · exact ih hr (fun y hy => ht y (List.mem_cons_of_mem _ hy)) m hm
    · cases h

theorem wordPairs_level (body : List Byte) : ∀ x ∈ wordPairs body, x.2 ≤ Config.full := by
  induction body using wordPairs.induct with
  | case1 a b c d rest ih =>
    rw [wordPairs]
    intro x hx
    rcases List.mem_cons.1 hx with rfl | hx
    · exact be16_le_full _ _
    · exact ih x hx
  | case2 body hb =>
    rw [wordPairs]
    · simp
    · exact hb

theorem readManual_level {body : List Byte} {f : ManualFields} (h : readManual body = some f) :
    ∀ x ∈ f.pairs, x.2 ≤ Config.full := by
  unfold readManual at h
  split at h
  · split at h
    · cases h; exact wordPairs_level _
    · cases h
  · cases h

/-- Checked pairs keep their levels. -/
theorem checkPairs_level {ps : List (Nat × Nat)} {qs : List (Fin 512 × Nat)} (h : checkPairs ps = some qs)
    (hl : ∀ x ∈ ps, x.2 ≤ Config.full) : ∀ x ∈ qs, x.2 ≤ Config.full := by
  induction ps generalizing qs with
  | nil => cases h; simp
  | cons x rest ih =>
    unfold checkPairs at h
    split at h
    · next c tail hc hr =>
      cases h
      intro y hy
      rcases List.mem_cons.1 hy with rfl | hy
      · exact hl x List.mem_cons_self
      · exact ih hr (fun z hz => hl z (List.mem_cons_of_mem _ hz)) y hy
    · cases h

theorem namesTwice_eq_false {n : Nat} {l : List (Fin n)} : namesTwice l = false ↔ l.Nodup := by
  induction l with
  | nil => simp [namesTwice]
  | cons c rest ih => simp [namesTwice, ih]

/-- An absorbed slot is the one the sender's fill record names (R14). -/
theorem fill_of_absorbing {d : Desk} {n : Nat} (h : absorbing s d n = true) :
    ∃ t cue, s.fill d = some ⟨t, .absorbing cue⟩ := by
  unfold absorbing at h
  split at h
  · exact ⟨_, _, ‹_›⟩
  · cases h

theorem Blank.coldStart (s : State) : Blank s.coldStart where
  slots := rfl
  fills l := by cases l <;> rfl
  playbacks := rfl
  channels := rfl
  runList := rfl
  grand := rfl
  frames k := by simp [State.rack, State.coldStart, RackLine.cold]

theorem Blank.assertReset (s : State) : Blank s.assertReset where
  slots := rfl
  fills l := by cases l <;> rfl
  playbacks := rfl
  channels := rfl
  runList := rfl
  grand := rfl
  frames k := by simp [State.rack, State.assertReset, State.reset, RackLine.cold]

namespace KeptBySteps
variable {P : State → Prop} (K : KeptBySteps r P) (l : Link) (body : List Byte) (role : Role)
include K

theorem decideCueOpen (hs : P s) : P (decideCueOpen l body role s).state := by
  unfold Machine.decideCueOpen
  repeat' split
  any_goals exact hs
  next d _ _ _ t follow _ hfo range =>
    exact K.openSlot d _ t _ _ (K.endFill d hs) (s.fill_endFill d) (CueOpenFields.header_legal hfo range)

theorem decideCueMoves (hs : P s) : P (decideCueMoves l body role s).state := by
  unfold Machine.decideCueMoves
  repeat' split
  any_goals exact hs
  next hb _ d _ _ _ _ t ms _ hms _ _ h held filler hx hd twice room =>
    obtain rfl : filler = d := not_not.1 hd
    exact K.addMoves filler t h held ms hs hx (checkMoves_legal hms (readCueMoves_target hb)) (by simpa using twice)
      (by omega)

theorem decideCueClose (hs : P s) : P (decideCueClose l body role s).state := by
  unfold Machine.decideCueClose
  repeat' split
  any_goals exact hs
  · next d _ hab =>
    obtain ⟨t, cue, hf⟩ := fill_of_absorbing hab
    exact K.endAbsorb d t cue hs hf
  · next d _ _ _ t _ _ h held filler hx hd full =>
    obtain rfl : filler = d := not_not.1 hd
    exact K.close filler t h held hs hx full
  · next t _ _ _ _ _ hx _ _ => exact K.emptySlot t hs (by simp [hx])

theorem decideCueDrop (hs : P s) : P (decideCueDrop l body role s).state := by
  unfold Machine.decideCueDrop
  repeat' split
  any_goals exact hs
  · next t _ _ _ _ _ hx _ => exact K.emptySlot t hs (by simp [hx])
  · next t _ _ _ _ hx _ => exact K.emptySlot t hs (by simp [hx])

theorem decideGo (hs : P s) : P (decideGo l body role s).state := by
  unfold Machine.decideGo
  repeat' split
  any_goals exact hs
  all_goals refine refuseFirst_keeps _ hs fun _ => ?_
  any_goals exact hs
  next d _ _ _ p t _ _ _ _ h ms hx _ _ => exact K.takeGo d p t h ms hs hx

theorem decideBack (hs : P s) : P (decideBack l body role s).state := by
  unfold Machine.decideBack
  repeat' split
  any_goals exact hs
  all_goals refine refuseFirst_keeps _ hs fun _ => ?_
  any_goals exact hs
  next d _ _ p _ _ top rest hx _ => exact K.takeBack d p top rest hs hx

theorem decideManual (hs : P s) : P (decideManual l body role s).state := by
  unfold Machine.decideManual
  repeat' split
  any_goals exact hs
  next f hf _ d _ _ _ p pairs _ hp _ =>
    refine refuseFirst_keeps _ hs fun pass => ?_
    have once : (pairs.map (·.1)).Nodup := 
      namesTwice_eq_false.1 (pass (_, .badField) (List.mem_append_left _ (List.mem_cons_of_mem _ List.mem_cons_self)))
    refine K.takeManual d p _ hs ?_ fun k hk => ?_
    · rw [List.map_map]
      exact once
    · obtain ⟨x, hx, rfl⟩ := List.mem_map.1 hk
      exact checkPairs_level hp (readManual_level hf) x hx

theorem decideRelease (hs : P s) : P (decideRelease l body role s).state := by
  unfold Machine.decideRelease
  repeat' split
  any_goals exact hs
  next d _ _ p _ =>
    refine refuseFirst_keeps _ hs fun _ => ?_
    rw [answer_state]
    exact K.takeRelease d p hs

omit l body role

theorem calmRow (l : Link) (q : Request) {decision : Role → State → Verdict} (hs : P s)
    (hd : ∀ role s, Calm r s (decision role s).state) : P (Machine.requestRow l q decision s) :=
  K.requestRow l q hs fun role h => K.calm (hd role _) h

theorem silence (l : Link) (hs : P s) : P (s.silence l) := by
  unfold State.silence
  dsimp only
  have fallen : P (s.modPort l Port.fallSilent) := K.calm (.modPort l _ Port.fallSilent_fill) hs
  repeat' split
  · exact hs
  · exact K.endFill _ (K.calm (.leadSilent _) fallen)
  · exact K.calm (.setParks _ _) fallen

/-- Whatever the command, a property that the operations keep is kept by it. -/
theorem exec {c : Instr} (hr : s.rig = r) (hs : P s) (h : Machine.exec c s = .next t) : P t := by
  cases c <;> obtain rfl := Host.Outcome.next.inj h
  case validTelegram => exact whileRunning_keeps hs (K.calm (.receive _ _) hs)
  case badTelegram => exact whileRunning_keeps hs (K.calm (.handOn _ _) hs)
  case interByteGap => exact whileRunning_keeps hs (K.calm (.modPort _ _ fun _ => rfl) hs)
  case replySent => exact whileRunning_keeps hs (K.calm (.modPort _ _ Port.replySent_fill) hs)
  case unknownKind =>
    split
    · exact hs
    · exact K.calmRow _ _ hs fun _ s => .refl r s
  case status => exact K.calmRow _ _ hs (decideStatus_calm _ _)
  case read => exact K.calmRow _ _ hs (decideRead_calm _ _)
  case takeLead => exact K.calmRow _ _ hs (decideTakeLead_calm _ _)
  case yieldLead => exact K.calmRow _ _ hs (decideYieldLead_calm _ _)
  case linkSetup => exact K.calmRow _ _ hs (decideLinkSetup_calm _ _)
  case cueOpen => exact K.requestRow _ _ hs (K.decideCueOpen _ _)
  case cueMoves => exact K.requestRow _ _ hs (K.decideCueMoves _ _)
  case cueClose => exact K.requestRow _ _ hs (K.decideCueClose _ _)
  case cueDrop => exact K.requestRow _ _ hs (K.decideCueDrop _ _)
  case go => exact K.requestRow _ _ hs (K.decideGo _ _)
  case back => exact K.requestRow _ _ hs (K.decideBack _ _)
  case manual => exact K.requestRow _ _ hs (K.decideManual _ _)
  case release => exact K.requestRow _ _ hs (K.decideRelease _ _)
  case hold => exact K.calmRow _ _ hs fun role s => decideHolds_calm _ _ role s true
  case resume => exact K.calmRow _ _ hs fun role s => decideHolds_calm _ _ role s false
  case rate => exact K.calmRow _ _ hs (decideRate_calm _ _)
  case pbLevel => exact K.calmRow _ _ hs (decidePbLevel_calm _ _)
  case playbackSetup => exact K.calmRow _ _ hs (decidePlaybackSetup_calm _ _)
  case fadeTick => exact whileRunning_keeps hs (K.tick hs)
  case followDue => exact whileRunning_keeps hs (K.followDue _ hs)
  case echoTimerExpiry =>
    exact whileRunning_keeps hs (K.calm (.modPlayback _ _ (fun _ _ h => h) fun _ => .inl rfl) hs)
  case patchSet => exact K.calmRow _ _ hs (decidePatchSet_calm _ _)
  case bankClear => exact K.calmRow _ _ hs (decideBankClear_calm _ _)
  case bankCopy => exact K.calmRow _ _ hs (decideBankCopy_calm _ _)
  case bankSelect => exact K.calmRow _ _ hs (decideBankSelect_calm _ _)
  case rebuildEnd => exact whileRunning_keeps hs (K.calm (.endRebuild hr) hs)
  case startBank => exact K.calmRow _ _ hs (decideStartBank_calm _ _)
  case profileSet => exact K.calmRow _ _ hs (decideProfileSet_calm _ _)
  case lawLoad => exact K.calmRow _ _ hs (decideLawLoad_calm _ _)
  case park => exact K.calmRow _ _ hs (decidePark_calm _ _)
  case flash => exact K.calmRow _ _ hs (decideFlash_calm _ _)
  case nudge => exact K.calmRow _ _ hs (decideNudge_calm _ _)
  case unpark => exact K.calmRow _ _ hs (decideUnpark_calm _ _)
  case flashTimerExpiry => exact whileRunning_keeps hs (K.calm (.setParks s _) hs)
  case lineInputChange => exact K.calm (.inputChange _ _) hs
  case debounceTimerExpiry => exact whileRunning_keeps hs (K.calm (.debounceExpiry _) hs)
  case lineSetup => exact K.calmRow _ _ hs (decideLineSetup_calm _ _)
  case lookSet => exact K.calmRow _ _ hs (decideLookSet_calm _ _)
  case lookRaise => exact K.calmRow _ _ hs fun role s => decideRaise_calm _ _ role s true
  case lookLower => exact K.calmRow _ _ hs fun role s => decideRaise_calm _ _ role s false
  case grand => exact K.calmRow _ _ hs (decideGrand_calm _ _)
  case rackSetup => exact K.calmRow _ _ hs (decideRackSetup_calm _ _)
  case frameStart => exact whileRunning_keeps hs (K.calm (.frameStart hr _) hs)
  case save => exact K.calmRow _ _ hs (decideSave_calm _ _)
  case saveEnd => exact whileRunning_keeps hs (K.calm .saveEnd hs)
  case saveWriteFailure => exact whileRunning_keeps hs (K.calm .saveFailure hs)
  case silenceMonitorExpiry => exact whileRunning_keeps hs (K.silence _ hs)
  case resetAssert =>
    unfold State.lowerReset
    split
    · exact K.blank (Blank.assertReset s)
    · exact K.blank (Blank.assertReset s)
    · exact K.calm (.setPower _) hs
  case coldStart =>
    unfold State.startCold
    split
    · exact K.blank (Blank.coldStart s)
    · exact K.blank (Blank.coldStart s)
    · exact K.blank (Blank.coldStart s)
    · exact K.calm (.setPower _) hs
  case supplyDip => exact whileRunning_keeps hs (K.calm .dip hs)
  case dipRestart =>
    unfold State.recover
    split
    · exact hs
    · exact hs
    · exact K.calm .dipRestart hs
    · exact K.blank (Blank.assertReset s)
  case linkByteReceived => exact whileRunning_keeps hs (K.calm (.handOn _ _) hs)

/-- A property that the operations keep is kept by every step. -/
theorem step (hr : s.rig = r) (hs : P s) (h : Machine.step s = .next t) : P t := by
  unfold Machine.step at h
  split at h
  · cases h; exact hs
  · next rest _ => exact K.exec (s := { s with pending := rest }) hr (K.calm (.outside rfl fun _ => rfl) hs) h

end KeptBySteps

end Sys2Proof.Machine
end

section
namespace Sys2Proof.Machine

variable {r : RigRecord} {s t u : State}

/-! ### READY and RUNNING content (R17) -/

@[simp] theorem Slot.toReady_toReady (x : Slot) : x.toReady.toReady = x.toReady := by cases x <;> rfl
@[simp] theorem Slot.toReady_toRunning (x : Slot) : x.toRunning.toReady = x.toReady := by cases x <;> rfl
@[simp] theorem Slot.reserved_toReady (x : Slot) : x.toReady.reserved = x.reserved := by cases x <;> rfl
@[simp] theorem Slot.cue?_toReady (x : Slot) : x.toReady.cue? = x.cue? := by cases x <;> rfl
@[simp] theorem Slot.moves_toReady (x : Slot) : x.toReady.moves = x.moves := by cases x <;> rfl
theorem Slot.legal_toReady (x : Slot) : x.toReady.Legal ↔ x.Legal := by cases x <;> rfl

theorem Slot.toReady_eq_filling (x : Slot) (h : CueHeader) (ms : List Move) (d : Desk) :
    x.toReady = .filling h ms d ↔ x = .filling h ms d := by
  cases x <;> simp [Slot.toReady]

/-- Every slot holds in `t` what it held in `s`, READY or RUNNING. -/
def SameContents (s t : State) : Prop := ∀ i, (t.slot i).toReady = (s.slot i).toReady

theorem SameContents.refl (s : State) : SameContents s s := fun _ => rfl

theorem SameContents.trans (h : SameContents s t) (k : SameContents t u) : SameContents s u := fun i => (k i).trans (h i)

theorem SameContents.of_slots (h : t.slots = s.slots) : SameContents s t := fun i => by
  unfold State.slot
  rw [h]

theorem SameContents.setSlot (i : Fin 32) (x : Slot) (h : x.toReady = (s.slot i).toReady) : SameContents s (s.setSlot i x) :=
  fun j => by
    rw [State.slot_setSlot]
    split
    · next e => exact e ▸ h
    · rfl

/-! ### The engine leaves the contents of the slots (R17) -/

theorem State.removeEntry_contents (e : RunEntry) : SameContents s (s.removeEntry e) := by
  unfold State.removeEntry
  dsimp only
  split
  · exact SameContents.trans (t := s.setRunList _) (.refl s) (.setSlot _ _ (Slot.toReady_toReady _))
  · exact .refl s

theorem State.testLeave_contents (firing : List Nat) (n : Fin 16) : SameContents s (s.testLeave firing n) := by
  obtain h | ⟨e, -, -, h⟩ := s.testLeave_cases firing n <;> rw [h]
  · exact .refl s
  · exact State.removeEntry_contents e

theorem State.testLeaveBorn_contents (firing : List Nat) (b : Nat) : SameContents s (s.testLeaveBorn firing b) := by
  obtain h | ⟨e, -, -, h⟩ := s.testLeaveBorn_cases firing b <;> rw [h]
  · exact .refl s
  · exact State.removeEntry_contents e

theorem State.modEntry_contents (n : Fin 16) (f : RunEntry → RunEntry) : SameContents s (s.modEntry n f) := .refl s

theorem State.release_contents (firing : List Nat) (x : ChannelRecord) : SameContents s (s.release firing x) := by
  unfold State.release
  split
  · exact (State.modEntry_contents _ _).trans (State.testLeave_contents _ _)
  · exact .refl s

theorem State.takeovers_contents (firing : List Nat) (n : Fin 16) (p : Fin 4) (takes : List Take) :
    SameContents s (takes.foldl (fun s k => s.takeover firing n p k) s) := by
  induction takes generalizing s with
  | nil => exact .refl s
  | cons k ks ih =>
    exact SameContents.trans (t := s.takeover firing n p k) (State.release_contents firing (s.channel p k.channel)) ih

theorem State.evaluate_contents (firing : List Nat) (n : Fin 16) : SameContents s (s.evaluate firing n) := by
  unfold State.evaluate
  split
  · exact .refl s
  · dsimp only
    split
    · exact .refl s
    · exact State.testLeave_contents (s := State.modEntry { s with channels := _ } n _) firing n

theorem State.makeRoom_contents : SameContents s s.makeRoom := by
  unfold State.makeRoom
  split
  · split
    · next e _ _ =>
      exact State.removeEntry_contents
        (s := { s with channels := s.channels.modify e.playback (Table.map (forceRecord e.number)) }) e
    · exact .refl s
  · exact .refl s

theorem State.start_contents (firing : List Nat) (kind : EntryKind) (p : Fin 4) (who : StartedBy) (takes : List Take) :
    SameContents s (s.start firing kind p who takes) :=
  (SameContents.trans (t := s.makeRoom.createEntry kind p who) State.makeRoom_contents
    (State.takeovers_contents firing _ p takes)).trans (State.evaluate_contents firing _)

theorem State.plainStart_contents (kind : EntryKind) (p : Fin 4) (who : StartedBy) (takes : List Take) :
    SameContents s (s.plainStart kind p who takes) :=
  (State.start_contents [] kind p who takes).trans (State.testLeaveBorn_contents _ _)

theorem State.beginCue_contents (firing : List Nat) (p : Fin 4) (i : Fin 32) (h : CueHeader) (ms : List Move)
    (who : StartedBy) : SameContents s (s.beginCue firing p i h ms who) := by
  unfold State.beginCue
  dsimp only
  generalize hv : State.push (s.modPlayback p fun x => { x with held := false }) p ms = v
  have pushed : SameContents s v := .of_slots (hv ▸ State.push_slots _ p ms)
  exact (pushed.trans (.setSlot i _ (Slot.toReady_toRunning _))).trans
    (State.start_contents (s := State.modPlayback _ p _) firing _ p who _)

theorem State.testFollow_contents (fuel : Nat) (chain : List (Fin 32)) (firing : List Nat) (b : Nat) :
    SameContents s (State.testFollow fuel chain firing b s) := by
  induction fuel generalizing s chain firing b with
  | zero =>
    obtain ⟨-, h⟩ | ⟨-, -, -, h⟩ | ⟨e, f, -, -, -, -, h⟩ | ⟨-, -, -, -, -, -, -, -, -, h, -⟩ :=
      s.testFollow_cases 0 chain firing b
    · rw [h]; exact .refl s
    · rw [h]; exact State.testLeaveBorn_contents _ _
    · rw [h]; exact State.testLeaveBorn_contents (s := (s.modEntry _ _).notifyDesks _) _ _
    · exact absurd rfl h
  | succ fuel ih =>
    obtain ⟨-, h⟩ | ⟨-, -, -, h⟩ | ⟨e, f, -, -, -, -, h⟩ | ⟨e, f, x, ms, -, -, -, hx, -, -, h⟩ :=
      s.testFollow_cases (fuel + 1) chain firing b <;> rw [h]
    · exact .refl s
    · exact State.testLeaveBorn_contents _ _
    · exact State.testLeaveBorn_contents (s := (s.modEntry _ _).notifyDesks _) _ _
    · rw [← State.beginCue_eq (s.modEntry e.number RunEntry.clearFollow) _ _ _ _ _ _ hx]
      exact (SameContents.trans (State.beginCue_contents (s := s.modEntry _ _) _ _ _ _ _ _) (ih _ _ _)).trans
        (State.testLeaveBorn_contents _ _)

theorem State.takeGo_contents (d : Desk) (p : Fin 4) (i : Fin 32) (h : CueHeader) (ms : List Move) :
    SameContents s (s.takeGo d p i h ms) :=
  (State.beginCue_contents [] p i h ms (.desk d)).trans (State.testFollow_contents _ _ _ _)

theorem State.visit_contents (b : Nat) : SameContents s (s.visit b) := by
  unfold State.visit
  repeat' split
  · exact .refl s
  · exact (State.evaluate_contents (s := s.modEntry _ _) _ _).trans (State.testFollow_contents _ _ _ _)
  · exact .refl s

theorem State.tick_contents : SameContents s s.tick := by
  unfold State.tick
  generalize s.runList.map (·.birth) = bs
  induction bs generalizing s with
  | nil => exact .refl s
  | cons b bs ih => exact (State.visit_contents b).trans ih

theorem State.followDue_contents (n : Fin 16) : SameContents s (s.followDue n) := by
  unfold State.followDue
  repeat' split
  · exact .refl s
  · exact State.testFollow_contents _ _ _ _
  · exact .refl s

/-! ### The same for the fills: what a start or a clock touches -/

theorem State.takeGo_beside (d : Desk) (p : Fin 4) (i : Fin 32) (h : CueHeader) (ms : List Move) :
    SameBeside s (s.takeGo d p i h ms) :=
  (s.beginCue_beside [] p i h ms (.desk d)).trans (State.testFollow_beside _ _ _ _ _)

theorem State.plainStart_beside (kind : EntryKind) (p : Fin 4) (who : StartedBy) (takes : List Take) :
    SameBeside s (s.plainStart kind p who takes) :=
  (s.start_beside [] kind p who takes).trans (State.testLeaveBorn_beside _ _ _)

theorem State.followDue_beside (n : Fin 16) : SameBeside s (s.followDue n) := by
  unfold State.followDue
  repeat' split
  · exact .refl s
  · exact State.testFollow_beside _ _ _ _ _
  · exact .refl s

theorem State.takeRelease_cases (d : Desk) (p : Fin 4) :
    let v := s.modPlayback p fun x => { x with stack := [], currentCue := 0 }
    s.takeRelease d p = v ∨ s.takeRelease d p = v.plainStart .release p (.desk d)
      ((v.releasable p).map fun c => flatTake (v.rig.playbacks.get p).releaseTime c 0) := by
  unfold State.takeRelease
  dsimp only
  generalize s.modPlayback p _ = v
  rcases v.releasable p with _ | ⟨c, cs⟩
  · exact .inl rfl
  · exact .inr rfl

theorem SameBeside.fill (h : SameBeside s t) (l : Link) : (t.port l).fill = (s.port l).fill := by rw [h.2 l]

/-! ### The cue store (R1 to R4) -/

/-- The cue store is legal with the same fill records and the same contents of the slots. -/
theorem State.CuesLegal.of_same (hs : s.CuesLegal) (hc : SameContents s t) (hf : ∀ l, (t.port l).fill = (s.port l).fill) :
    t.CuesLegal where
  reserved_le := by
    have cells : t.slots.map Slot.toReady = s.slots.map Slot.toReady := by
      refine Table.ext_get fun i => ?_
      rw [Table.get_map, Table.get_map]
      exact hc i
    have reserved (v : State) : v.reservedMoves = ((v.slots.map Slot.toReady).cells.map Slot.reserved).sum := by
      simp [State.reservedMoves, Table.map, Function.comp_def]
    rw [reserved, cells, ← reserved]
    exact hs.reserved_le
  slots i := by
    rw [← Slot.legal_toReady, hc i, Slot.legal_toReady]
    exact hs.slots i
  fills i d := by
    show _ ↔ (t.port (linkOf d)).fill = _
    rw [hf]
    simp only [← Slot.toReady_eq_filling (t.slot i), hc i, Slot.toReady_eq_filling]
    exact hs.fills i d
  absorbs i d cue h := by
    rw [← Slot.cue?_toReady, hc i, Slot.cue?_toReady]
    exact hs.absorbs i d cue ((hf _).symm.trans h)
  remote_none := (hf .c).trans hs.remote_none

/-- One slot written, the fill records brought along with it: within R1 to R4 if the new content is, its reservation has room,
and the records of that slot fit it while those of other slots stand. -/
theorem State.CuesLegal.write (hs : s.CuesLegal) {i : Fin 32} {x : Slot} (slots : t.slots = s.slots.set i x)
    (room : s.reservedMoves + x.reserved ≤ Config.moveStore + (s.slot i).reserved) (legal : x.Legal)
    (here : ∀ d, (∃ h ms, x = .filling h ms d) ↔ t.fill d = some ⟨i, .filling⟩)
    (absorbs : ∀ d cue, t.fill d = some ⟨i, .absorbing cue⟩ → x.cue? = some cue)
    (others : ∀ d j m, j ≠ i → (t.fill d = some ⟨j, m⟩ ↔ s.fill d = some ⟨j, m⟩))
    (remote : t.ports.c.fill = s.ports.c.fill) : t.CuesLegal := by
  have slot (j : Fin 32) : t.slot j = if i = j then x else s.slot j := by
    unfold State.slot
    rw [slots, Table.get_set]
  have sum := s.slots.sum_set i x Slot.reserved
  refine ⟨?_, fun j => ?_, fun j d => ?_, fun j d cue h => ?_, remote.trans hs.remote_none⟩
  · show ((t.slots.cells.map Slot.reserved).sum) ≤ _
    rw [slots]
    unfold State.reservedMoves State.slot at room
    omega
  · rw [slot]
    split
    · exact legal
    · exact hs.slots j
  · rw [slot]
    split
    · next hj => exact hj ▸ here d
    · next hj => exact (hs.fills j d).trans (others d j .filling (Ne.symm hj)).symm
  · rw [slot]
    split
    · next hj => exact absorbs d cue (hj ▸ h)
    · next hj => exact hs.absorbs j d cue ((others d j _ (Ne.symm hj)).1 h)

end Sys2Proof.Machine
end

section
namespace Sys2Proof.Machine

variable {r : RigRecord} {s t u : State}

/-! ### The operations of the cue store keep it legal (R1 to R4) -/

theorem fillAfterEmpty_eq_some {i : Fin 32} {f : Option Fill} {j : Fin 32} {m : FillMode} :
    fillAfterEmpty i f = some ⟨j, m⟩ ↔ j ≠ i ∧ f = some ⟨j, m⟩ := by
  rcases f with _ | ⟨k, n⟩
  · simp [fillAfterEmpty]
  · by_cases hk : k = i <;> simp only [fillAfterEmpty, hk, if_true, if_false, Option.some.injEq, Fill.mk.injEq, reduceCtorEq]
    · constructor
      · exact False.elim
      · rintro ⟨ne, e, -⟩; exact ne e.symm
    · constructor
      · rintro ⟨rfl, rfl⟩; exact ⟨hk, rfl, rfl⟩
      · exact And.right

theorem fillAfterReplace_eq_some {i : Fin 32} {cue : Nat} {f : Option Fill} {j : Fin 32} {m : FillMode} :
    fillAfterReplace i cue f = some ⟨j, m⟩ ↔ f = some ⟨j, m⟩ ∧ (j = i → m = .absorbing cue) := by
  rcases f with _ | ⟨k, n⟩
  · simp [fillAfterReplace]
  · by_cases hk : k = i ∧ n ≠ .absorbing cue <;>
      simp only [fillAfterReplace, hk, if_true, if_false, ne_eq, not_false_eq_true, and_self, Option.some.injEq,
        Fill.mk.injEq, reduceCtorEq]
    · constructor
      · exact False.elim
      · rintro ⟨⟨rfl, rfl⟩, e⟩; exact hk.2 (e rfl)
    · constructor
      · rintro ⟨rfl, rfl⟩; exact ⟨⟨rfl, rfl⟩, fun e => not_not.1 fun ne => hk ⟨e, ne⟩⟩
      · exact And.left

theorem State.CuesLegal.emptySlot (hs : s.CuesLegal) (i : Fin 32) : (s.emptySlot i).CuesLegal := by
  refine hs.write (s.emptySlot_slots i) ?_ trivial (fun d => ?_) (fun d cue h => ?_) (fun d j m hj => ?_) rfl
  · have := hs.reserved_le
    simp only [Slot.reserved]
    omega
  · rw [State.fill_emptySlot, fillAfterEmpty_eq_some]
    simp
  · rw [State.fill_emptySlot, fillAfterEmpty_eq_some] at h
    exact absurd rfl h.1
  · rw [State.fill_emptySlot, fillAfterEmpty_eq_some]
    exact and_iff_right hj

/-- A fill record dropped or set to absorb a slot that holds the cue number, where it named no slot being filled. -/
theorem State.CuesLegal.setFill (hs : s.CuesLegal) {d : Desk} {f : Option Fill} (old : ∀ i, s.fill d ≠ some ⟨i, .filling⟩)
    (new : ∀ i m, f = some ⟨i, m⟩ → ∃ cue, m = .absorbing cue ∧ (s.slot i).cue? = some cue) :
    (s.setFill d f).CuesLegal where
  reserved_le := hs.reserved_le
  slots := hs.slots
  fills i e := by
    rw [State.slot_setFill, hs.fills i e, State.fill_setFill]
    split
    · next h =>
      subst h
      refine ⟨fun h => absurd h (old i), fun h => ?_⟩
      obtain ⟨cue, hm, -⟩ := new i _ h
      cases hm
    · rfl
  absorbs i e cue h := by
    rw [State.slot_setFill]
    rw [State.fill_setFill] at h
    split at h
    · obtain ⟨c, hm, hc⟩ := new i _ h
      cases hm
      exact hc
    · exact hs.absorbs i e cue h
  remote_none := by
    cases d <;> exact hs.remote_none

theorem State.CuesLegal.endFill (hs : s.CuesLegal) (d : Desk) : (s.endFill d).CuesLegal := by
  obtain ⟨i, hi, h⟩ | ⟨hn, h⟩ := s.endFill_cases d <;> rw [h]
  · refine (hs.emptySlot i).setFill (fun j hj => ?_) (by simp)
    rw [State.fill_emptySlot, fillAfterEmpty_eq_some, hi] at hj
    obtain ⟨ne, e⟩ := hj
    cases e
    exact ne rfl
  · exact hs.setFill hn (by simp)

theorem State.CuesLegal.startFill (hs : s.CuesLegal) {d : Desk} {i : Fin 32} {h : CueHeader} (free : s.fill d = none)
    (legal : h.Legal) (room : h.declared ≤ s.freeMoves + (s.slot i).reserved) : (s.startFill d i h).CuesLegal := by
  have ne_filling {e : Desk} {j : Fin 32} {m : FillMode} (hf : (s.startFill d i h).fill e = some ⟨j, m⟩) (he : e ≠ d) :
      s.fill e = some ⟨j, m⟩ ∧ (j = i → m = .absorbing h.cue) := by
    rwa [State.fill_startFill, if_neg he, fillAfterReplace_eq_some] at hf
  have own : (s.startFill d i h).fill d = some ⟨i, .filling⟩ := by rw [State.fill_startFill, if_pos rfl]
  refine hs.write (s.startFill_slots d i h) ?_ ?_ (fun e => ?_) (fun e cue hf => ?_) (fun e j m hj => ?_)
    (by cases d <;> rfl)
  · have := hs.reserved_le
    show s.reservedMoves + h.declared ≤ _
    unfold State.freeMoves at room
    omega
  · exact ⟨legal, by simp, by simp, by simp⟩
  · by_cases he : e = d
    · subst he
      exact ⟨fun _ => own, fun _ => ⟨h, [], rfl⟩⟩
    · refine ⟨fun ⟨h', ms, e'⟩ => ?_, fun hf => ?_⟩
      · cases e'
        exact absurd rfl he
      · cases (ne_filling hf he).2 rfl
  · by_cases he : e = d
    · subst he
      rw [own] at hf
      cases hf
    · have := (ne_filling hf he).2 rfl
      cases this
      rfl
  · by_cases he : e = d
    · subst he
      rw [own, free]
      simp [Ne.symm hj]
    · rw [State.fill_startFill, if_neg he, fillAfterReplace_eq_some]
      exact and_iff_left fun e => absurd e hj

/-- Moves that pass R15's checks join a slot within R1 and R2. -/
theorem contentLegal.append {h : CueHeader} {held ms : List Move} (hc : contentLegal h held) (legal : ∀ m ∈ ms, m.Legal)
    (once : channelTwice held ms = false) (room : held.length + ms.length ≤ h.declared) :
    contentLegal h (held ++ ms) := by
  obtain ⟨header, moves, -, nodup⟩ := hc
  refine ⟨header, fun m hm => (List.mem_append.1 hm).elim (moves m) (legal m), by simpa using room, ?_⟩
  have apart := mt (channelTwice_iff held ms).2 (by simp [once])
  rw [not_or, not_not] at apart
  rw [List.map_append, List.nodup_append']
  refine ⟨nodup, apart.1, fun c hc hc' => ?_⟩
  obtain ⟨x, hx, rfl⟩ := List.mem_map.1 hc
  obtain ⟨m, hm, e⟩ := List.mem_map.1 hc'
  exact apart.2 ⟨m, hm, x, hx, e.symm⟩

theorem State.CuesLegal.addMoves (hs : s.CuesLegal) {d : Desk} {i : Fin 32} {h : CueHeader} {held ms : List Move}
    (hx : s.slot i = .filling h held d) (legal : ∀ m ∈ ms, m.Legal) (once : channelTwice held ms = false)
    (room : held.length + ms.length ≤ h.declared) : (s.setSlot i (.filling h (held ++ ms) d)).CuesLegal := by
  have content : (Slot.filling h held d).Legal := hx ▸ hs.slots i
  refine hs.write rfl ?_ (contentLegal.append content legal once room) (fun e => ?_) (fun e cue hf => ?_) (fun _ _ _ _ => Iff.rfl) rfl
  · have := hs.reserved_le
    rw [hx]
    simp only [Slot.reserved]
    omega
  · rw [State.fill_setSlot, ← hs.fills, hx]
    simp
  · have := hs.absorbs i e cue hf
    rw [hx] at this
    exact this

theorem State.CuesLegal.close (hs : s.CuesLegal) {d : Desk} {i : Fin 32} {h : CueHeader} {held : List Move}
    (hx : s.slot i = .filling h held d) (full : held.length = h.declared) :
    ((s.setSlot i (.ready h held)).setFill d none).CuesLegal := by
  have content : (Slot.filling h held d).Legal := hx ▸ hs.slots i
  have own : s.fill d = some ⟨i, .filling⟩ := (hs.fills i d).1 ⟨h, held, hx⟩
  refine hs.write (i := i) (x := .ready h held) rfl ?_ ⟨content, full⟩ (fun e => ?_) (fun e cue hf => ?_)
    (fun e j m hj => ?_) (by cases d <;> rfl)
  · have := hs.reserved_le
    rw [hx]
    simp only [Slot.reserved]
    omega
  all_goals rw [State.fill_setFill, State.fill_setSlot] at *
  · split
    · simp
    · next ne =>
      rw [← hs.fills, hx]
      simp [ne]
  · split at hf
    · cases hf
    · have := hs.absorbs i e cue hf
      rw [hx] at this
      exact this
  · split
    · next he =>
      subst he
      rw [own]
      simp [Ne.symm hj]
    · rfl

theorem State.CuesLegal.of_blank (h : Blank s) : s.CuesLegal := by
  have slot (i : Fin 32) : s.slot i = .empty := by
    unfold State.slot
    rw [h.slots, Table.get_fill]
  have fill (d : Desk) : s.fill d = none := h.fills _
  refine ⟨?_, fun i => ?_, fun i d => ?_, fun i d cue hf => ?_, h.fills .c⟩
  · unfold State.reservedMoves
    rw [h.slots]
    decide
  · rw [slot]
    trivial
  · simp [slot, fill]
  · rw [fill] at hf
    cases hf

theorem State.CuesLegal.modPlayback (hs : s.CuesLegal) (p : Fin 4) (f : Playback → Playback) :
    (s.modPlayback p f).CuesLegal :=
  hs.of_same (.of_slots rfl) fun _ => rfl

theorem State.CuesLegal.plainStart (hs : s.CuesLegal) (kind : EntryKind) (p : Fin 4) (who : StartedBy) (takes : List Take) :
    (s.plainStart kind p who takes).CuesLegal :=
  hs.of_same (State.plainStart_contents _ _ _ _) (State.plainStart_beside _ _ _ _).fill

/-- Everything a step can do to the cue store keeps it legal. -/
theorem cuesLegal_kept (r : RigRecord) : KeptBySteps r State.CuesLegal where
  calm h hs := hs.of_same (.of_slots h.slots) h.fills
  blank := .of_blank
  endFill d hs := hs.endFill d
  startFill _ _ _ hs free _ legal room := hs.startFill free legal room
  absorb d i cue hs free hc := hs.setFill (by simp [free]) fun j m e => by cases e; exact ⟨cue, rfl, hc⟩
  endAbsorb d i cue hs hf := hs.setFill (by simp [hf]) (by simp)
  addMoves _ _ _ _ _ hs hx legal once room := hs.addMoves hx legal once room
  close _ _ _ _ hs hx full := hs.close hx full
  emptySlot i hs _ := hs.emptySlot i
  takeGo d p i h ms hs _ := hs.of_same (State.takeGo_contents d p i h ms) (State.takeGo_beside d p i h ms).fill
  takeBack _ p _ _ hs _ := (hs.modPlayback p _).plainStart _ _ _ _
  takeManual _ _ _ hs _ _ := hs.plainStart _ _ _ _
  takeRelease d p hs := by
    obtain h | h := State.takeRelease_cases d p <;> rw [h]
    · exact hs.modPlayback p _
    · exact (hs.modPlayback p _).plainStart _ _ _ _
  tick hs := hs.of_same State.tick_contents (State.tick_beside _).fill
  followDue n hs := hs.of_same (State.followDue_contents n) (State.followDue_beside n).fill

/-- Settles O22: no operation that a step can make leaves the legal cue store (`cuesLegal_kept`). -/
theorem everyStepKeepsTheCueStoreLegal : Obligations.EveryStepKeepsTheCueStoreLegal :=
  fun s _ hs h => (cuesLegal_kept s.rig).step rfl hs h

end Sys2Proof.Machine
end

section
namespace Sys2Proof.Machine

variable {r : RigRecord} {s t u : State}

/-! ### Levels of records (R22, R52, R54) -/

/-- The level of a fade lies between its start and its target (R54). -/
theorem fadeLevel_between (o : Ownership) (e : Nat) (h : e < o.delay + o.time) :
    min o.start o.target ≤ fadeLevel o e ∧ fadeLevel o e ≤ max o.start o.target := by
  have step (d : Nat) : d * (e - o.delay) / o.time ≤ d := by
    rcases Nat.eq_zero_or_pos o.time with h0 | hp
    · simp [h0]
    · exact Nat.div_le_of_le_mul (by rw [Nat.mul_comm o.time]; exact Nat.mul_le_mul_left d (by omega))
  unfold fadeLevel
  split
  · have moved := step (o.target - o.start)
    generalize (o.target - o.start) * (e - o.delay) / o.time = x at moved ⊢
    omega
  · have moved := step (o.start - o.target)
    generalize (o.start - o.target) * (e - o.delay) / o.time = x at moved ⊢
    omega

/-- An owned record evaluated lies within R22 at every clock value. -/
theorem evalOwned_legal (o : Ownership) (e : Nat) (hs : o.start ≤ Config.full) (ht : o.target ≤ Config.full) :
    (evalOwned o e).Legal := by
  obtain ⟨-, h⟩ | ⟨hd, hlt, h⟩ | ⟨-, h⟩ := evalOwned_cases o e <;> rw [h]
  · refine ⟨hs, fun x hx => ?_⟩
    cases hx
    exact ⟨hs, ht, Nat.min_le_left _ _, Nat.le_max_left _ _, fun _ => rfl⟩
  · obtain ⟨lo, hi⟩ := fadeLevel_between o e hlt
    refine ⟨hi.trans (Nat.max_le.2 ⟨hs, ht⟩), fun x hx => ?_⟩
    cases hx
    exact ⟨hs, ht, lo, hi, fun h => nomatch h⟩
  · exact ⟨ht, fun x hx => nomatch hx⟩

theorem ChannelRecord.Legal.evalRecord {x : ChannelRecord} (hx : x.Legal) (n : Fin 16) (e : Nat) :
    (evalRecord n e x).Legal := by
  unfold Machine.evalRecord
  split
  · next o ho =>
    split
    · exact evalOwned_legal o e (hx.2 o ho).1 (hx.2 o ho).2.1
    · exact hx
  · exact hx

theorem ChannelRecord.Legal.forceRecord {x : ChannelRecord} (hx : x.Legal) (n : Fin 16) : (forceRecord n x).Legal := by
  unfold Machine.forceRecord
  split
  · next o ho =>
    split
    · exact ⟨(hx.2 o ho).2.1, fun _ h => nomatch h⟩
    · exact hx
  · exact hx

/-- A record just taken over stands at its start level (R27). -/
theorem Take.ownership_legal (k : Take) (n : Fin 16) {level : Nat} (hl : level ≤ Config.full) (hk : k.target ≤ Config.full) :
    ChannelRecord.Legal ⟨level, some (k.ownership n level)⟩ := by
  refine ⟨hl, fun o ho => ?_⟩
  cases ho
  exact ⟨hl, hk, Nat.min_le_left _ _, Nat.le_max_left _ _, fun _ => rfl⟩

/-! ### What keeps the levels legal -/

/-- The pairs a kind of entry holds have levels within the range. -/
def EntryKind.LevelsLegal (k : EntryKind) : Prop := ∀ cue pairs, k = .back cue pairs → ∀ x ∈ pairs, x.level ≤ Config.full

theorem RunEntry.clearFollow_kind (e : RunEntry) (h : e.kind.LevelsLegal) : e.clearFollow.kind.LevelsLegal := by
  unfold RunEntry.clearFollow
  split
  · intro _ _ h; cases h
  · exact h

/-- Levels outside the engine's records, stacks and BACK entries stand when nothing beside the engine changes and the slots
keep their contents. -/
theorem State.LevelsLegal.of_same (hs : s.LevelsLegal) (hb : SameBeside s t) (hc : SameContents s t)
    (records : ∀ p c, (t.channel p c).Legal) (backs : ∀ e ∈ t.runList, e.kind.LevelsLegal)
    (playbacks : t.playbacks = s.playbacks) : t.LevelsLegal where
  records := records
  targets i m hm := by
    rw [← Slot.moves_toReady, hc i, Slot.moves_toReady] at hm
    exact hs.targets i m hm
  restores p := by
    unfold State.playback
    rw [playbacks]
    exact hs.restores p
  backs e he cue pairs := backs e he cue pairs
  frames k := by
    rw [hb.1]
    exact hs.frames k
  masters p := by
    unfold State.playback
    rw [playbacks]
    exact hs.masters p
  grand_le := by
    rw [hb.1]
    exact hs.grand_le

theorem State.LevelsLegal.removeEntry (hs : s.LevelsLegal) (e : RunEntry) : (s.removeEntry e).LevelsLegal := by
  refine hs.of_same (s.removeEntry_beside e) (State.removeEntry_contents e) ?_ ?_ ?_ <;> rw [s.removeEntry_eq]
  · exact hs.records
  · exact fun x hx => hs.backs x (List.mem_of_mem_filter hx)

theorem State.LevelsLegal.testLeave (hs : s.LevelsLegal) (firing : List Nat) (n : Fin 16) :
    (s.testLeave firing n).LevelsLegal := by
  obtain h | ⟨e, -, -, h⟩ := s.testLeave_cases firing n <;> rw [h]
  · exact hs
  · exact hs.removeEntry e

theorem State.LevelsLegal.testLeaveBorn (hs : s.LevelsLegal) (firing : List Nat) (b : Nat) :
    (s.testLeaveBorn firing b).LevelsLegal := by
  obtain h | ⟨e, -, -, h⟩ := s.testLeaveBorn_cases firing b <;> rw [h]
  · exact hs
  · exact hs.removeEntry e

theorem State.LevelsLegal.modEntry (hs : s.LevelsLegal) (n : Fin 16) {f : RunEntry → RunEntry}
    (hf : ∀ e, e.kind.LevelsLegal → (f e).kind.LevelsLegal) : (s.modEntry n f).LevelsLegal :=
  { hs with
    backs := fun e he => by
      obtain ⟨x, hx, rfl⟩ := List.mem_map.1 he
      have old : x.kind.LevelsLegal := hs.backs x hx
      split
      · exact hf x old
      · exact old }

/-- The channels of one playback replaced by legal records. -/
theorem State.LevelsLegal.setRecords (hs : s.LevelsLegal) (p : Fin 4) {x : Table 512 ChannelRecord}
    (hx : ∀ c, (x.get c).Legal) : State.LevelsLegal { s with channels := s.channels.set p x } :=
  { hs with
    records := fun q c => by
      unfold State.channel
      rw [Table.get_set]
      split
      · exact hx c
      · exact hs.records q c }

theorem State.LevelsLegal.release (hs : s.LevelsLegal) (firing : List Nat) (x : ChannelRecord) :
    (s.release firing x).LevelsLegal := by
  unfold State.release
  split
  · apply State.LevelsLegal.testLeave
    exact hs.modEntry _ fun _ h => h
  · exact hs

theorem State.LevelsLegal.takeover (hs : s.LevelsLegal) (firing : List Nat) (n : Fin 16) (p : Fin 4) {k : Take}
    (hk : k.target ≤ Config.full) : (s.takeover firing n p k).LevelsLegal := by
  have taken := (hs.release firing (s.channel p k.channel)).modEntry n
    (f := fun e => { e with owned := e.owned + 1 }) fun _ h => h
  refine taken.setRecords p fun c => ?_
  rw [Table.get_set]
  split
  · exact k.ownership_legal n (hs.records p k.channel).1 hk
  · exact taken.records p c

theorem State.LevelsLegal.takeovers (hs : s.LevelsLegal) (firing : List Nat) (n : Fin 16) (p : Fin 4) {takes : List Take}
    (ht : ∀ k ∈ takes, k.target ≤ Config.full) :
    (takes.foldl (fun s k => s.takeover firing n p k) s).LevelsLegal := by
  induction takes generalizing s with
  | nil => exact hs
  | cons k ks ih =>
    exact ih (hs.takeover firing n p (ht k List.mem_cons_self)) fun j hj => ht j (List.mem_cons_of_mem _ hj)

theorem State.LevelsLegal.evaluate (hs : s.LevelsLegal) (firing : List Nat) (n : Fin 16) :
    (s.evaluate firing n).LevelsLegal := by
  unfold State.evaluate
  split
  · exact hs
  · next e _ =>
    have evaluated : State.LevelsLegal
        { s with channels := s.channels.set e.playback ((s.channels.get e.playback).map (evalRecord n e.clock)) } :=
      hs.setRecords e.playback fun c => by
        rw [Table.get_map]
        exact (hs.records e.playback c).evalRecord n e.clock
    dsimp only
    split
    · exact evaluated.modEntry n fun _ h => h
    · apply State.LevelsLegal.testLeave
      exact evaluated.modEntry n fun _ h => h

theorem State.LevelsLegal.notifyAll (hs : s.LevelsLegal) (n : Notice) : (s.notifyAll n).LevelsLegal := { hs with }

theorem State.LevelsLegal.notifyDesks (hs : s.LevelsLegal) (n : Notice) : (s.notifyDesks n).LevelsLegal := { hs with }

theorem State.LevelsLegal.makeRoom (hs : s.LevelsLegal) : s.makeRoom.LevelsLegal := by
  unfold State.makeRoom
  split
  · split
    · next e _ _ =>
      exact ((hs.setRecords e.playback fun c => by
        rw [Table.get_map]
        exact (hs.records e.playback c).forceRecord e.number).removeEntry e).notifyAll .forced
    · exact hs
  · exact hs

theorem State.LevelsLegal.createEntry (hs : s.LevelsLegal) {kind : EntryKind} (hk : kind.LevelsLegal) (p : Fin 4)
    (who : StartedBy) : (s.createEntry kind p who).LevelsLegal :=
  { hs with
    backs := fun e he => by
      rcases List.mem_append.1 he with he | he
      · exact hs.backs e he
      · obtain rfl := List.mem_singleton.1 he
        exact hk }

theorem State.LevelsLegal.start (hs : s.LevelsLegal) (firing : List Nat) {kind : EntryKind} (hk : kind.LevelsLegal)
    (p : Fin 4) (who : StartedBy) {takes : List Take} (ht : ∀ k ∈ takes, k.target ≤ Config.full) :
    (s.start firing kind p who takes).LevelsLegal :=
  ((hs.makeRoom.createEntry hk p who).takeovers firing _ p ht).evaluate firing _

theorem State.LevelsLegal.plainStart (hs : s.LevelsLegal) {kind : EntryKind} (hk : kind.LevelsLegal) (p : Fin 4)
    (who : StartedBy) {takes : List Take} (ht : ∀ k ∈ takes, k.target ≤ Config.full) :
    (s.plainStart kind p who takes).LevelsLegal :=
  (hs.start [] hk p who ht).testLeaveBorn _ _

theorem State.LevelsLegal.modPlayback (hs : s.LevelsLegal) (p : Fin 4) {f : Playback → Playback}
    (hf : ∀ e ∈ (f (s.playback p)).stack, ∀ x ∈ e.pairs, x.level ≤ Config.full)
    (hm : (f (s.playback p)).master ≤ Config.full) : (s.modPlayback p f).LevelsLegal :=
  { hs with
    restores := fun q => by
      rw [State.playback_modPlayback]
      split
      · exact hf
      · exact hs.restores q
    masters := fun q => by
      rw [State.playback_modPlayback]
      split
      · exact hm
      · exact hs.masters q }

/-- Discarding for room only shortens a stack (R66). -/
theorem discardOldest_sublist (held need fuel : Nat) (st : List RestoreEntry) :
    (discardOldest held need fuel st).Sublist st := by
  induction fuel generalizing st with
  | zero => exact .refl _
  | succ fuel ih =>
    unfold discardOldest
    split
    · exact .refl _
    · exact (ih _).trans (List.dropLast_sublist _)

theorem State.roomyStack_sublist (s : State) (p : Fin 4) (need : Nat) :
    (s.roomyStack p need).Sublist (s.playback p).stack := by
  unfold State.roomyStack
  dsimp only
  split
  · exact (discardOldest_sublist _ _ _ _).trans (List.dropLast_sublist _)
  · exact discardOldest_sublist _ _ _ _

theorem State.LevelsLegal.push (hs : s.LevelsLegal) (p : Fin 4) (ms : List Move) : (s.push p ms).LevelsLegal := by
  have kept : ∀ e ∈ s.roomyStack p (s.capture p ms).length, ∀ x ∈ e.pairs, x.level ≤ Config.full :=
    fun e he => hs.restores p e ((s.roomyStack_sublist p _).subset he)
  unfold State.push
  dsimp only
  split
  · refine hs.modPlayback p (fun e he => ?_) (hs.masters p)
    rcases List.mem_cons.1 he with rfl | he
    · intro x hx
      obtain ⟨m, -, rfl⟩ := List.mem_map.1 hx
      exact (hs.records p m.channel).1
    · exact kept e he
  · exact (hs.modPlayback p kept (hs.masters p)).notifyDesks .backLost

theorem State.LevelsLegal.setSlot (hs : s.LevelsLegal) (i : Fin 32) {x : Slot} (hx : ∀ m ∈ x.moves, m.target ≤ Config.full) :
    (s.setSlot i x).LevelsLegal :=
  { hs with
    targets := fun j => by
      rw [State.slot_setSlot]
      split
      · exact hx
      · exact hs.targets j }

theorem State.LevelsLegal.beginCue (hs : s.LevelsLegal) (firing : List Nat) (p : Fin 4) (i : Fin 32) (h : CueHeader)
    {ms : List Move} (who : StartedBy) (hm : ∀ m ∈ ms, m.target ≤ Config.full) :
    (s.beginCue firing p i h ms who).LevelsLegal := by
  unfold State.beginCue
  dsimp only
  have pushed := (hs.modPlayback p (f := fun x => { x with held := false }) (hs.restores p) (hs.masters p)).push p ms
  generalize State.push _ p ms = v at pushed
  have running := pushed.setSlot i (x := (v.slot i).toRunning) (by
    rw [← Slot.moves_toReady, Slot.toReady_toRunning, Slot.moves_toReady]
    exact pushed.targets i)
  refine (running.modPlayback p (running.restores p) (running.masters p)).start firing (by rintro _ _ ⟨⟩) p who ?_
  intro k hk
  obtain ⟨m, hm', rfl⟩ := List.mem_map.1 hk
  exact hm m hm'

theorem State.LevelsLegal.testFollow (hs : s.LevelsLegal) (fuel : Nat) (chain : List (Fin 32)) (firing : List Nat) (b : Nat) :
    (State.testFollow fuel chain firing b s).LevelsLegal := by
  induction fuel generalizing s chain firing b with
  | zero =>
    obtain ⟨-, h⟩ | ⟨-, -, -, h⟩ | ⟨e, f, -, -, -, -, h⟩ | ⟨-, -, -, -, -, -, -, -, -, h, -⟩ :=
      s.testFollow_cases 0 chain firing b
    · rw [h]; exact hs
    · rw [h]; exact hs.testLeaveBorn _ _
    · rw [h]; exact ((hs.modEntry _ RunEntry.clearFollow_kind).notifyDesks _).testLeaveBorn _ _
    · exact absurd rfl h
  | succ fuel ih =>
    obtain ⟨-, h⟩ | ⟨-, -, -, h⟩ | ⟨e, f, -, -, -, -, h⟩ | ⟨e, f, x, ms, -, -, -, hx, -, -, h⟩ :=
      s.testFollow_cases (fuel + 1) chain firing b <;> rw [h]
    · exact hs
    · exact hs.testLeaveBorn _ _
    · exact ((hs.modEntry _ RunEntry.clearFollow_kind).notifyDesks _).testLeaveBorn _ _
    · rw [← State.beginCue_eq (s.modEntry e.number RunEntry.clearFollow) _ _ _ _ _ _ hx]
      have targets := hs.targets f.slot
      rw [hx] at targets
      exact (ih ((hs.modEntry _ RunEntry.clearFollow_kind).beginCue _ _ _ _ _ targets) _ _ _).testLeaveBorn _ _

theorem State.LevelsLegal.visit (hs : s.LevelsLegal) (b : Nat) : (s.visit b).LevelsLegal := by
  unfold State.visit
  repeat' split
  · exact hs
  · apply State.LevelsLegal.testFollow
    apply State.LevelsLegal.evaluate
    exact hs.modEntry _ fun _ h => h
  · exact hs

theorem State.LevelsLegal.tick (hs : s.LevelsLegal) : s.tick.LevelsLegal := by
  unfold State.tick
  generalize s.runList.map (·.birth) = bs
  induction bs generalizing s with
  | nil => exact hs
  | cons b bs ih => exact ih (hs.visit b)

/-- A change of the fills leaves every level, where it gives the slots no new move. -/
theorem State.LevelsLegal.of_fills (hs : s.LevelsLegal) (h : t = { s with ports := t.ports, slots := t.slots })
    (moves : ∀ i, ∀ m ∈ (t.slot i).moves, m.target ≤ Config.full) : t.LevelsLegal := by
  rw [h]
  exact { hs with targets := by rw [h] at moves; exact moves }

theorem State.LevelsLegal.emptySlot (hs : s.LevelsLegal) (i : Fin 32) : (s.emptySlot i).LevelsLegal := by
  refine hs.of_fills rfl fun j => ?_
  rw [State.slot_emptySlot]
  split
  · exact fun _ h => nomatch h
  · exact hs.targets j

theorem State.LevelsLegal.setFill (hs : s.LevelsLegal) (d : Desk) (f : Option Fill) : (s.setFill d f).LevelsLegal :=
  hs.of_fills rfl hs.targets

theorem State.LevelsLegal.startFill (hs : s.LevelsLegal) (d : Desk) (i : Fin 32) (h : CueHeader) :
    (s.startFill d i h).LevelsLegal := by
  refine hs.of_fills rfl fun j => ?_
  rw [State.slot_startFill]
  split
  · exact fun _ h => nomatch h
  · exact hs.targets j

theorem State.LevelsLegal.endFill (hs : s.LevelsLegal) (d : Desk) : (s.endFill d).LevelsLegal := by
  obtain ⟨i, -, h⟩ | ⟨-, h⟩ := s.endFill_cases d <;> rw [h]
  · exact (hs.emptySlot i).setFill d none
  · exact hs.setFill d none

theorem State.LevelsLegal.of_calm (hs : s.LevelsLegal) (hr : r.Legal) (h : Calm r s t) : t.LevelsLegal where
  records p c := by
    unfold State.channel
    rw [h.channels]
    exact hs.records p c
  targets i := by
    unfold State.slot
    rw [h.slots]
    exact hs.targets i
  restores p x hx := hs.restores p x (h.stack_mem p x hx)
  backs := by
    rw [h.runList]
    exact hs.backs
  frames k f hf := (h.frames k f hf).elim (hs.frames k f) fun new => new hr
  masters p := (h.masters p).elim (fun e => e ▸ hs.masters p) id
  grand_le := h.grand.elim (fun e => e ▸ hs.grand_le) id

theorem State.LevelsLegal.of_blank (h : Blank s) : s.LevelsLegal where
  records p c := by
    unfold State.channel
    rw [h.channels, Table.get_fill, Table.get_fill]
    exact ⟨Nat.zero_le _, fun _ h => nomatch h⟩
  targets i := by
    unfold State.slot
    rw [h.slots, Table.get_fill]
    exact fun _ h => nomatch h
  restores p := by
    unfold State.playback
    rw [h.playbacks, Table.get_fill]
    exact fun _ h => nomatch h
  backs := by
    rw [h.runList]
    exact fun _ h => nomatch h
  frames k f hf := by
    rw [h.frames k] at hf
    cases hf
  masters p := by
    unfold State.playback
    rw [h.playbacks, Table.get_fill]
    exact Nat.le_refl _
  grand_le := h.grand.le

/-- Everything a step can do to levels keeps them legal, under a legal rig record. -/
theorem levelsLegal_kept (hr : r.Legal) : KeptBySteps r State.LevelsLegal where
  calm h hs := hs.of_calm hr h
  blank := .of_blank
  endFill d hs := hs.endFill d
  startFill d i h hs _ _ _ _ := hs.startFill d i h
  absorb d _ _ hs _ _ := hs.setFill d _
  endAbsorb d _ _ hs _ := hs.setFill d none
  addMoves d i h held ms hs hx legal _ _ := hs.setSlot i fun m hm => by
    have targets := hs.targets i
    rw [hx] at targets
    exact (List.mem_append.1 hm).elim (targets m) fun hm => (legal m hm).1
  close d i h held hs hx _ := by
    have targets := hs.targets i
    rw [hx] at targets
    exact State.LevelsLegal.setFill (hs.setSlot i (x := .ready h held) targets) d none
  emptySlot i hs _ := hs.emptySlot i
  takeGo d p i h ms hs hx := by
    have targets := hs.targets i
    rw [hx] at targets
    exact (hs.beginCue [] p i h (.desk d) targets).testFollow _ _ _ _
  takeBack d p top rest hs hx := by
    have pairs (e : RestoreEntry) (he : e ∈ top :: rest) : ∀ x ∈ e.pairs, x.level ≤ Config.full :=
      hs.restores p e (hx ▸ he)
    refine (hs.modPlayback p (fun e he => pairs e (List.mem_cons_of_mem _ he)) (hs.masters p)).plainStart ?_ p _ ?_
    · rintro _ _ ⟨⟩
      exact pairs top List.mem_cons_self
    · intro k hk
      obtain ⟨x, hx', rfl⟩ := List.mem_map.1 hk
      exact pairs top List.mem_cons_self x hx'
  takeManual d p takes hs _ ht := hs.plainStart (by rintro _ _ ⟨⟩) p _ ht
  takeRelease d p hs := by
    have cleared := hs.modPlayback p (f := fun x => { x with stack := [], currentCue := 0 })
      (fun _ h => nomatch h) (hs.masters p)
    obtain h | h := State.takeRelease_cases d p <;> rw [h]
    · exact cleared
    · refine cleared.plainStart (by rintro _ _ ⟨⟩) p _ fun k hk => ?_
      obtain ⟨c, -, rfl⟩ := List.mem_map.1 hk
      exact Nat.zero_le _
  tick hs := hs.tick
  followDue n hs := by
    unfold State.followDue
    repeat' split
    · exact hs
    · exact hs.testFollow _ _ _ _
    · exact hs

/-- Settles O39: no operation that a step can make takes a level out of its range (`levelsLegal_kept`). -/
theorem everyStepKeepsTheLevelsLegal : Obligations.EveryStepKeepsTheLevelsLegal :=
  fun _ _ hr hs h => (levelsLegal_kept hr.working).step rfl hs h

end Sys2Proof.Machine
end

section
namespace Sys2Proof.Machine

variable {s t u : State}

/-! ### Entries that leave the run list (R17, R25, R26) -/

/-- The slot of a CUE entry's kind. -/
def EntryKind.slot? : EntryKind → Option (Fin 32)
  | .cue i _ _ => some i
  | _ => none

theorem EntryKind.slot?_eq_some {k : EntryKind} {i : Fin 32} : k.slot? = some i ↔ ∃ cue f, k = .cue i cue f := by
  cases k <;> simp [EntryKind.slot?]

/-- What tells a run entry from every other and stays with it while it stands. -/
structure Tag where
  number : Fin 16
  birth : Nat
  playback : Fin 4
  slot? : Option (Fin 32)

/-- The tag of a run entry. -/
def RunEntry.tag (e : RunEntry) : Tag := ⟨e.number, e.birth, e.playback, e.kind.slot?⟩

/-- The tags of the run list. -/
def State.tags (s : State) : List Tag := s.runList.map RunEntry.tag

theorem RunEntry.tag_clearFollow (e : RunEntry) : e.clearFollow.tag = e.tag := by
  obtain ⟨_, _, kind, _, _, _, _⟩ := e
  cases kind <;> rfl

theorem State.tags_modEntry (n : Fin 16) {f : RunEntry → RunEntry} (hf : ∀ e, (f e).tag = e.tag) :
    (s.modEntry n f).tags = s.tags := by
  show (s.runList.map _).map _ = _
  rw [List.map_map]
  refine List.map_congr_left fun e _ => ?_
  show RunEntry.tag (if e.number = n then f e else e) = _
  split
  · exact hf e
  · rfl

/-- One of the listed entries of slot `i` is not listed any more. -/
def LeftSlot (before after : List Tag) (i : Fin 32) : Prop := ∃ x ∈ before, x.slot? = some i ∧ x ∉ after

/-- Going from `s` to `t` entries can only leave, and of the slots exactly those of CUE entries that left are READY again. -/
structure Leaves (s t : State) : Prop where
  sub : t.tags.Sublist s.tags
  left : ∀ i, LeftSlot s.tags t.tags i → t.slot i = (s.slot i).toReady
  stood : ∀ i, ¬ LeftSlot s.tags t.tags i → t.slot i = s.slot i

theorem Leaves.of_same (tags : t.tags = s.tags) (slots : t.slots = s.slots) : Leaves s t where
  sub := tags ▸ .refl _
  left i := by
    rintro ⟨x, hx, -, hn⟩
    exact absurd (tags ▸ hx) hn
  stood i _ := by
    unfold State.slot
    rw [slots]

theorem Leaves.refl (s : State) : Leaves s s := .of_same rfl rfl

theorem Leaves.trans (h : Leaves s t) (k : Leaves t u) : Leaves s u where
  sub := k.sub.trans h.sub
  left i := by
    rintro ⟨x, hx, hi, hn⟩
    by_cases ht : x ∈ t.tags
    · rw [k.left i ⟨x, ht, hi, hn⟩]
      by_cases hl : LeftSlot s.tags t.tags i
      · rw [h.left i hl, Slot.toReady_toReady]
      · rw [h.stood i hl]
    · have ready := h.left i ⟨x, hx, hi, ht⟩
      by_cases hl : LeftSlot t.tags u.tags i
      · rw [k.left i hl, ready, Slot.toReady_toReady]
      · rw [k.stood i hl, ready]
  stood i hn := by
    rw [k.stood i fun ⟨x, hx, hi, hu⟩ => hn ⟨x, h.sub.subset hx, hi, hu⟩]
    exact h.stood i fun ⟨x, hx, hi, ht⟩ => hn ⟨x, hx, hi, fun hu => ht (k.sub.subset hu)⟩

/-- The same entry joining both lists changes nothing of what leaves. -/
theorem Leaves.append {s' t' : State} (h : Leaves s t) {x : Tag} (hx : x ∉ s.tags) (hs : s'.tags = s.tags ++ [x])
    (ht : t'.tags = t.tags ++ [x]) (slots : s'.slots = s.slots) (slots' : t'.slots = t.slots) : Leaves s' t' := by
  have same (i : Fin 32) : LeftSlot s'.tags t'.tags i ↔ LeftSlot s.tags t.tags i := by
    simp only [LeftSlot, hs, ht, List.mem_append, List.mem_singleton, not_or]
    constructor
    · rintro ⟨y, hy | hy, hi, hn, hne⟩
      · exact ⟨y, hy, hi, hn⟩
      · exact absurd hy hne
    · rintro ⟨y, hy, hi, hn⟩
      exact ⟨y, .inl hy, hi, hn, fun e => hx (e ▸ hy)⟩
  refine ⟨by rw [hs, ht]; exact h.sub.append_right _, fun i hi => ?_, fun i hi => ?_⟩
  all_goals
    unfold State.slot
    rw [slots, slots']
  · exact h.left i ((same i).1 hi)
  · exact h.stood i (mt (same i).2 hi)

/-- In terms of births: a slot is READY again exactly when an entry that named it has left. -/
theorem Leaves.slotFollows (h : Leaves s t) (births : (s.runList.map (·.birth)).Nodup) (i : Fin 32) :
    SlotFollows s s.runList t i := by
  have iff : (∃ e ∈ s.runList, (∃ cue f, e.kind = .cue i cue f) ∧ e.birth ∉ t.runList.map (·.birth)) ↔
      LeftSlot s.tags t.tags i := by
    constructor
    · rintro ⟨e, he, hk, hb⟩
      refine ⟨e.tag, List.mem_map_of_mem he, EntryKind.slot?_eq_some.2 hk, fun hm => hb ?_⟩
      obtain ⟨y, hy, e'⟩ := List.mem_map.1 hm
      exact List.mem_map.2 ⟨y, hy, congrArg Tag.birth e'⟩
    · rintro ⟨x, hx, hi, hn⟩
      obtain ⟨e, he, rfl⟩ := List.mem_map.1 hx
      refine ⟨e, he, EntryKind.slot?_eq_some.1 hi, fun hb => hn ?_⟩
      obtain ⟨y, hy, hyb⟩ := List.mem_map.1 hb
      obtain ⟨z, hz, hzy⟩ := List.mem_map.1 (h.sub.subset (List.mem_map_of_mem hy))
      obtain rfl : z = e := List.inj_on_of_nodup_map births hz he ((congrArg Tag.birth hzy).trans hyb)
      exact hzy ▸ List.mem_map_of_mem hy
  exact ⟨fun hl => h.left i (iff.1 hl), fun hn => h.stood i (mt iff.2 hn)⟩

/-- An entry removed under a number of its own leaves alone. -/
theorem State.removeEntry_leaves {e : RunEntry} (he : e ∈ s.runList) (numbers : (s.runList.map (·.number)).Nodup) :
    Leaves s (s.removeEntry e) := by
  rw [s.removeEntry_eq]
  have gone {x : Tag} (hx : x ∈ s.tags) :
      x ∉ (s.runList.filter fun y => y.number ≠ e.number).map RunEntry.tag ↔ x = e.tag := by
    obtain ⟨y, hy, rfl⟩ := List.mem_map.1 hx
    constructor
    · intro hn
      by_cases hne : y.number = e.number
      · rw [List.inj_on_of_nodup_map numbers hy he hne]
      · exact absurd (List.mem_map_of_mem (List.mem_filter.2 ⟨hy, by simpa using hne⟩)) hn
    · intro h hm
      obtain ⟨z, hz, hzy⟩ := List.mem_map.1 hm
      have : z.number = e.number := congrArg Tag.number (hzy.trans h)
      exact absurd this (by simpa using (List.mem_filter.1 hz).2)
  have slot (i : Fin 32) : LeftSlot s.tags ((s.runList.filter fun y => y.number ≠ e.number).map RunEntry.tag) i ↔
      e.kind.slot? = some i := by
    constructor
    · rintro ⟨x, hx, hi, hn⟩
      rw [(gone hx).1 hn] at hi
      exact hi
    · exact fun hi => ⟨e.tag, List.mem_map_of_mem he, hi, (gone (List.mem_map_of_mem he)).2 rfl⟩
  refine ⟨List.Sublist.map _ List.filter_sublist, fun i hi => ?_, fun i hi => ?_⟩
  · obtain ⟨cue, f, hk⟩ := EntryKind.slot?_eq_some.1 ((slot i).1 hi)
    simp only [hk]
    exact Table.get_set_self _ _ _
  · have hn := mt (slot i).2 hi
    rcases hk : e.kind with ⟨j, cue, f⟩ | _ | _ | _ <;> try rfl
    rw [hk] at hn
    exact Table.get_set_ne _ _ fun e => hn (congrArg some e)

/-! ### RUNNING slots and CUE entries (R25) -/

/-- RUNNING slots and CUE entries name each other one to one. -/
structure Agree (tags : List Tag) (slot : Fin 32 → Slot) : Prop where
  running : ∀ i, (∃ h ms, slot i = .running h ms) ↔ ∃ x ∈ tags, x.slot? = some i
  one_entry : ∀ i, ∀ x ∈ tags, ∀ y ∈ tags, x.slot? = some i → y.slot? = some i → x = y

theorem Slot.toReady_ne_running (x : Slot) (h : CueHeader) (ms : List Move) : x.toReady ≠ .running h ms := by
  cases x <;> simp [Slot.toReady]

theorem Agree.leaves (h : Agree s.tags s.slot) (k : Leaves s t) : Agree t.tags t.slot where
  one_entry i x hx y hy := h.one_entry i x (k.sub.subset hx) y (k.sub.subset hy)
  running i := by
    constructor
    · rintro ⟨c, ms, hr⟩
      have stands : ¬ LeftSlot s.tags t.tags i := fun hl =>
        Slot.toReady_ne_running _ c ms ((k.left i hl).symm.trans hr)
      obtain ⟨x, hx, hi⟩ := (h.running i).1 ⟨c, ms, (k.stood i stands).symm.trans hr⟩
      exact ⟨x, not_not.1 fun hn => stands ⟨x, hx, hi, hn⟩, hi⟩
    · rintro ⟨x, hx, hi⟩
      rw [k.stood i]
      · exact (h.running i).2 ⟨x, k.sub.subset hx, hi⟩
      · rintro ⟨y, hy, hyi, hn⟩
        exact hn (h.one_entry i x (k.sub.subset hx) y hy hi hyi ▸ hx)

/-- An entry of another kind than CUE joins. -/
theorem Agree.append_plain {tags : List Tag} {slot : Fin 32 → Slot} (h : Agree tags slot) {x : Tag} (hx : x.slot? = none) :
    Agree (tags ++ [x]) slot where
  running i := by
    rw [h.running i]
    simp [or_and_right, exists_or, hx]
  one_entry i y hy z hz hi hj := by
    simp only [List.mem_append, List.mem_singleton] at hy hz
    rcases hy with hy | rfl
    · rcases hz with hz | rfl
      · exact h.one_entry i y hy z hz hi hj
      · rw [hx] at hj; cases hj
    · rw [hx] at hi; cases hi

/-- A slot that no entry names runs under a new CUE entry. -/
theorem Agree.append_cue {tags : List Tag} {slot slot' : Fin 32 → Slot} (h : Agree tags slot) {x : Tag} {i : Fin 32}
    (hx : x.slot? = some i) (idle : ∀ c ms, slot i ≠ .running c ms) (run : ∃ c ms, slot' i = .running c ms)
    (others : ∀ j, j ≠ i → slot' j = slot j) : Agree (tags ++ [x]) slot' := by
  have unnamed : ∀ y ∈ tags, y.slot? ≠ some i := fun y hy hi => by
    obtain ⟨c, ms, hr⟩ := (h.running i).2 ⟨y, hy, hi⟩
    exact idle c ms hr
  refine ⟨fun j => ?_, fun j y hy z hz hj hj' => ?_⟩
  · by_cases hj : j = i
    · subst hj
      exact ⟨fun _ => ⟨x, by simp, hx⟩, fun _ => run⟩
    · rw [others j hj, h.running j]
      have : x.slot? ≠ some j := fun e => hj (Option.some.inj (e.symm.trans hx))
      simp [or_and_right, exists_or, this]
  · simp only [List.mem_append, List.mem_singleton] at hy hz
    rcases hy with hy | rfl
    · rcases hz with hz | rfl
      · exact h.one_entry j y hy z hz hj hj'
      · exact absurd (hj.trans (hj'.symm.trans hx)) (unnamed y hy)
    · rcases hz with hz | rfl
      · exact absurd (hj'.trans (hj.symm.trans hx)) (unnamed z hz)
      · rfl

end Sys2Proof.Machine
end

section
namespace Sys2Proof.Machine

variable {s t u : State}

/-! ### Counting the records of an entry (R26) -/

/-- How many records of playback `p` entry `n` owns. -/
def State.ownedOn (s : State) (p : Fin 4) (n : Fin 16) : Nat := (s.channels.get p).count (ownedBy n)

theorem Table.count_pos {n : Nat} {α : Type} {x : Table n α} {p : α → Bool} {i : Fin n} (h : p (x.get i) = true) :
    0 < x.count p :=
  List.length_pos_of_mem (List.mem_filter.2 ⟨Table.mem_cells.2 ⟨i, rfl⟩, h⟩)

theorem ownedBy_iff {n : Fin 16} {x : ChannelRecord} : ownedBy n x = true ↔ ∃ o, x.own = some o ∧ o.owner = n := by
  simp [ownedBy, Option.any_eq_true]

theorem State.ownedOn_pos {p : Fin 4} {c : Fin 512} {o : Ownership} (h : (s.channel p c).own = some o) :
    0 < s.ownedOn p o.owner :=
  Table.count_pos (i := c) (ownedBy_iff.2 ⟨o, h, rfl⟩)

/-- Entries with unique numbers, owners that are listed entries of the record's playback, and owned counts that count their
records (R22, R25, R26). -/
structure State.Counted (s : State) : Prop where
  numbers : (s.runList.map (·.number)).Nodup
  owners : ∀ p c o, (s.channel p c).own = some o → ∃ e ∈ s.runList, e.number = o.owner ∧ e.playback = p
  counts : ∀ e ∈ s.runList, e.owned = s.ownedOn e.playback e.number

theorem State.OwnersLegal.counted {firing : List Nat} (h : s.OwnersLegal firing) : s.Counted :=
  ⟨h.runList.numbers, h.owners, h.counts⟩

theorem State.Counted.entry?_eq (h : s.Counted) {e : RunEntry} (he : e ∈ s.runList) : s.entry? e.number = some e := by
  unfold State.entry?
  cases hf : s.runList.find? fun x => x.number = e.number with
  | none => exact absurd (List.find?_eq_none.1 hf e he) (by simp)
  | some x =>
    have hx : x.number = e.number := by simpa using List.find?_some hf
    rw [List.inj_on_of_nodup_map h.numbers (List.mem_of_find?_eq_some hf) he hx]

/-- The owner of a record, as an entry, is of the record's playback. -/
theorem State.Counted.playback_of_owner (h : s.Counted) {e : RunEntry} (he : e ∈ s.runList) {p : Fin 4} {c : Fin 512}
    {o : Ownership} (ho : (s.channel p c).own = some o) (hn : o.owner = e.number) : e.playback = p := by
  obtain ⟨x, hx, hxn, hxp⟩ := h.owners p c o ho
  rw [← List.inj_on_of_nodup_map h.numbers hx he (hxn.trans hn), hxp]

/-! ### Run lists recounted (R26) -/

@[simp] theorem RunEntry.recounted_number (e : RunEntry) : (e.recounted t).number = e.number := rfl
@[simp] theorem RunEntry.recounted_recounted (e : RunEntry) : (e.recounted s).recounted t = e.recounted t := rfl
@[simp] theorem RunEntry.recounted_owned (e : RunEntry) : (e.recounted t).owned = t.ownedOn e.playback e.number := rfl

theorem RunEntry.recounted_congr (h : t.channels = s.channels) (e : RunEntry) : e.recounted t = e.recounted s := by
  unfold RunEntry.recounted
  rw [h]

/-- The entries of a list, counted by the channels of `t`, that a test keeps. -/
def State.kept (t : State) (keep : RunEntry → Bool) (l : List RunEntry) : List RunEntry :=
  (l.map (RunEntry.recounted t)).filter keep

theorem State.standing_eq (t : State) (firing : List Nat) (l : List RunEntry) :
    t.standing firing l = t.kept (RunEntry.stays firing) l := rfl

theorem State.kept_append (keep : RunEntry → Bool) (l m : List RunEntry) :
    t.kept keep (l ++ m) = t.kept keep l ++ t.kept keep m := by
  simp [State.kept]

theorem State.mem_kept {keep : RunEntry → Bool} {l : List RunEntry} {e : RunEntry} :
    e ∈ t.kept keep l ↔ ∃ x ∈ l, x.recounted t = e ∧ keep e = true := by
  simp only [State.kept, List.mem_filter, List.mem_map]
  constructor
  · rintro ⟨⟨x, hx, rfl⟩, hk⟩; exact ⟨x, hx, rfl, hk⟩
  · rintro ⟨x, hx, rfl, hk⟩; exact ⟨⟨x, hx, rfl⟩, hk⟩

theorem State.kept_congr {j k : RunEntry → Bool} {l : List RunEntry}
    (h : ∀ x ∈ l, j (x.recounted t) = k (x.recounted t)) : t.kept j l = t.kept k l := by
  unfold State.kept
  refine List.filter_congr fun e he => ?_
  obtain ⟨x, hx, rfl⟩ := List.mem_map.1 he
  exact h x hx

/-- Two tests in a row, with a recount between them. -/
theorem State.kept_kept {j k m : RunEntry → Bool} {l : List RunEntry}
    (h : ∀ x ∈ l, (j (x.recounted s) && k (x.recounted t)) = m (x.recounted t)) :
    t.kept k (s.kept j l) = t.kept m l := by
  induction l with
  | nil => rfl
  | cons x xs ih =>
    have hx := h x List.mem_cons_self
    have ih := ih fun y hy => h y (List.mem_cons_of_mem _ hy)
    unfold State.kept at ih ⊢
    simp only [List.map_cons, List.filter_cons]
    cases hj : j (x.recounted s) <;> cases hk : k (x.recounted t) <;> rw [hj, hk] at hx <;>
      simp [← hx, ih, hk]

theorem State.kept_tags_sublist (keep : RunEntry → Bool) (l : List RunEntry) :
    ((t.kept keep l).map RunEntry.tag).Sublist (l.map RunEntry.tag) := by
  have : (l.map (RunEntry.recounted t)).map RunEntry.tag = l.map RunEntry.tag := by
    rw [List.map_map]
    rfl
  rw [← this]
  exact List.filter_sublist.map _

/-- Counts of entries that are right already are not changed by a recount. -/
theorem RunEntry.recounted_of_count {e : RunEntry} (h : e.owned = t.ownedOn e.playback e.number) : e.recounted t = e := by
  obtain ⟨_, _, _, _, _, _, _⟩ := e
  simp only [RunEntry.recounted, RunEntry.mk.injEq, true_and, and_true]
  exact h.symm

theorem State.Counted.kept_self (h : s.Counted) {keep : RunEntry → Bool} (hk : ∀ e ∈ s.runList, keep e = true) :
    s.kept keep s.runList = s.runList := by
  have same : s.runList.map (RunEntry.recounted s) = s.runList :=
    (List.map_congr_left fun e he => RunEntry.recounted_of_count (h.counts e he)).trans (List.map_id _)
  unfold State.kept
  rw [same]
  exact List.filter_eq_self.2 hk

theorem map_number_eq (l : List RunEntry) : l.map (·.number) = (l.map RunEntry.tag).map Tag.number := by
  rw [List.map_map]
  rfl

theorem map_birth_eq (l : List RunEntry) : l.map (·.birth) = (l.map RunEntry.tag).map Tag.birth := by
  rw [List.map_map]
  rfl

/-- A recounted list counts right; its owners are listed as far as the test keeps every entry that owns something. -/
theorem State.Counted.of_kept {l : List RunEntry} {keep : RunEntry → Bool} (hl : t.runList = t.kept keep l)
    (numbers : (l.map (·.number)).Nodup)
    (owners : ∀ p c o, (t.channel p c).own = some o → ∃ e ∈ l, e.number = o.owner ∧ e.playback = p)
    (keeps : ∀ e, 0 < e.owned → keep e = true) : t.Counted where
  numbers := by
    rw [hl, map_number_eq]
    rw [map_number_eq] at numbers
    exact ((State.kept_tags_sublist keep l).map _).nodup numbers
  owners p c o ho := by
    obtain ⟨e, he, hn, hp⟩ := owners p c o ho
    refine ⟨e.recounted t, ?_, hn, hp⟩
    rw [hl]
    refine State.mem_kept.2 ⟨e, he, rfl, keeps _ ?_⟩
    rw [RunEntry.recounted_owned, hn, hp]
    exact State.ownedOn_pos ho
  counts e he := by
    rw [hl] at he
    obtain ⟨x, -, rfl, -⟩ := State.mem_kept.1 he
    rfl

theorem RunEntry.stays_of_owned {firing : List Nat} {e : RunEntry} (h : 0 < e.owned) : e.stays firing = true := by
  simp [RunEntry.stays, h]

/-- The test for removal keeps exactly the entries that stay. -/
theorem RunEntry.done_eq (firing : List Nat) (e : RunEntry) : e.done firing = !e.stays firing := by
  unfold RunEntry.done RunEntry.stays
  cases e.follow <;> by_cases h : e.owned = 0 <;> simp [h, Nat.pos_iff_ne_zero]

/-- The test for removal on the list: the entry of that number goes unless it stays. -/
theorem State.testLeave_runList (firing : List Nat) (n : Fin 16) (numbers : (s.runList.map (·.number)).Nodup) :
    (s.testLeave firing n).runList = s.runList.filter fun e => e.number ≠ n || e.stays firing := by
  have same (h : ∀ e ∈ s.runList, e.number = n → e.stays firing = true) :
      s.runList = s.runList.filter fun e => e.number ≠ n || e.stays firing := by
    refine (List.filter_eq_self.2 fun e he => ?_).symm
    by_cases hn : e.number = n
    · simp [h e he hn]
    · simp [hn]
  unfold State.testLeave
  split
  · next e he =>
    obtain ⟨hm, rfl⟩ := s.entry?_eq_some he
    split
    · next hd =>
      rw [s.removeEntry_eq]
      refine List.filter_congr fun x hx => ?_
      by_cases hn : x.number = e.number
      · obtain rfl := List.inj_on_of_nodup_map numbers hx hm hn
        rw [RunEntry.done_eq, Bool.not_eq_true'] at hd
        simp [hd]
      · simp [hn]
    · next hd =>
      refine same fun x hx hn => ?_
      obtain rfl := List.inj_on_of_nodup_map numbers hx hm hn
      simpa [RunEntry.done_eq] using hd
  · next he => exact same fun e hm hn => absurd hn (by simpa using List.find?_eq_none.1 he e hm)

theorem State.testLeave_leaves (firing : List Nat) (n : Fin 16) (numbers : (s.runList.map (·.number)).Nodup) :
    Leaves s (s.testLeave firing n) := by
  obtain h | ⟨e, he, -, h⟩ := s.testLeave_cases firing n <;> rw [h]
  · exact .refl s
  · exact State.removeEntry_leaves (s.entry?_eq_some he).1 numbers

@[simp] theorem State.testLeave_channels (firing : List Nat) (n : Fin 16) :
    (s.testLeave firing n).channels = s.channels := by
  obtain h | ⟨e, -, -, h⟩ := s.testLeave_cases firing n <;> rw [h]
  rw [s.removeEntry_eq]

/-- What the life of run entries can change in a state that has made its starts: channels, slots and run list. -/
def SameButEntries (s t : State) : Prop := t = { s with channels := t.channels, slots := t.slots, runList := t.runList }

theorem SameButEntries.refl (s : State) : SameButEntries s s := rfl

theorem SameButEntries.trans (h : SameButEntries s t) (k : SameButEntries t u) : SameButEntries s u := by
  unfold SameButEntries at *
  rw [k, h]

theorem State.removeEntry_same (e : RunEntry) : SameButEntries s (s.removeEntry e) := by
  unfold SameButEntries
  rw [s.removeEntry_eq]

theorem State.testLeave_same (firing : List Nat) (n : Fin 16) : SameButEntries s (s.testLeave firing n) := by
  obtain h | ⟨e, -, -, h⟩ := s.testLeave_cases firing n <;> rw [h]
  · exact .refl s
  · exact State.removeEntry_same e

end Sys2Proof.Machine
end

section
namespace Sys2Proof.Machine

variable {s t u : State} {firing : List Nat} {n : Fin 16} {p : Fin 4}

/-! ### Takeover (R27) -/

/-- What one or more takeovers by entry `n` make of a state: the run list is recounted and the entries left with nothing have left,
no entry but `n` has gained a record. -/
structure Takes (firing : List Nat) (n : Fin 16) (s t : State) : Prop where
  runList : t.runList = t.kept (fun e => e.number = n || e.stays firing) s.runList
  fewer : ∀ p m, m ≠ n → t.ownedOn p m ≤ s.ownedOn p m
  leaves : Leaves s t
  counted : t.Counted
  same : SameButEntries s t

theorem State.numbers_modEntry (m : Fin 16) {f : RunEntry → RunEntry} (hf : ∀ e, (f e).tag = e.tag)
    (h : (s.runList.map (·.number)).Nodup) : ((s.modEntry m f).runList.map (·.number)).Nodup := by
  rw [map_number_eq] at h ⊢
  have tags : (s.modEntry m f).runList.map RunEntry.tag = s.runList.map RunEntry.tag := State.tags_modEntry m hf
  rw [tags]
  exact h

/-- An entry once it has let go of record `x`, if it owned that. -/
def RunEntry.released (x : ChannelRecord) (e : RunEntry) : RunEntry :=
  if ownedBy e.number x then { e with owned := e.owned - 1 } else e

@[simp] theorem RunEntry.released_number (x : ChannelRecord) (e : RunEntry) : (e.released x).number = e.number := by
  unfold RunEntry.released
  split <;> rfl

/-- The owner of a record counts one record less and leaves if it has nothing else. -/
theorem State.release_runList (x : ChannelRecord) (numbers : (s.runList.map (·.number)).Nodup) :
    (s.release firing x).runList =
      (s.runList.map (RunEntry.released x)).filter fun e => !ownedBy e.number x || e.stays firing := by
  unfold State.release RunEntry.released
  rcases hx : x.own with _ | o
  · simp [ownedBy, hx]
  · have ow (m : Fin 16) : ownedBy m x = decide (m = o.owner) := by simp [ownedBy, hx, eq_comm]
    dsimp only
    have kept := State.numbers_modEntry o.owner (f := fun e => { e with owned := e.owned - 1 }) (fun _ => rfl) numbers
    rw [State.testLeave_runList firing o.owner kept]
    simp only [State.modEntry, State.setRunList, ow, decide_eq_true_eq]
    simp

theorem State.release_channels (x : ChannelRecord) : (s.release firing x).channels = s.channels := by
  unfold State.release
  split
  · exact State.testLeave_channels _ _
  · rfl

theorem State.release_leaves (x : ChannelRecord) (numbers : (s.runList.map (·.number)).Nodup) :
    Leaves s (s.release firing x) := by
  unfold State.release
  split
  · next o _ =>
    exact (Leaves.of_same (t := s.modEntry o.owner fun e => { e with owned := e.owned - 1 })
      (State.tags_modEntry _ fun _ => rfl) rfl).trans
      (State.testLeave_leaves _ _ (State.numbers_modEntry _ (fun _ => rfl) numbers))
  · exact .refl s

theorem State.release_same (x : ChannelRecord) : SameButEntries s (s.release firing x) := by
  unfold State.release
  split
  · exact SameButEntries.trans (t := s.modEntry _ _) rfl (State.testLeave_same _ _)
  · exact .refl s

theorem State.takeover_channels (k : Take) :
    (s.takeover firing n p k).channels = s.channels.set p ((s.channels.get p).set k.channel
      ⟨(s.channel p k.channel).level, some (k.ownership n (s.channel p k.channel).level)⟩) := by
  show (State.release s firing _).channels.set p (((State.release s firing _).channels.get p).set _ _) = _
  rw [State.release_channels]

theorem State.channel_takeover (k : Take) (q : Fin 4) (c : Fin 512) :
    (s.takeover firing n p k).channel q c =
      if p = q ∧ k.channel = c then
        ⟨(s.channel p k.channel).level, some (k.ownership n (s.channel p k.channel).level)⟩
      else s.channel q c := by
  rw [← State.channel_setChannel]
  unfold State.channel
  rw [State.takeover_channels]
  rfl

/-- A takeover moves one record of the playback from its old owner to the new one. -/
theorem State.ownedOn_takeover (k : Take) (q : Fin 4) (m : Fin 16) :
    (s.takeover firing n p k).ownedOn q m + (if p = q ∧ ownedBy m (s.channel p k.channel) = true then 1 else 0) =
      s.ownedOn q m + if p = q ∧ m = n then 1 else 0 := by
  have count := (s.channels.get p).count_set k.channel
    ⟨(s.channel p k.channel).level, some (k.ownership n (s.channel p k.channel).level)⟩ (ownedBy m)
  have new : ownedBy m ⟨(s.channel p k.channel).level, some (k.ownership n (s.channel p k.channel).level)⟩ =
      decide (m = n) := by simp [ownedBy, Take.ownership, eq_comm]
  rw [new] at count
  unfold State.ownedOn
  rw [State.takeover_channels, Table.get_set]
  by_cases hq : p = q
  · subst hq
    simpa [State.channel] using count
  · simp [hq]

section
variable {e : RunEntry} {k : Take} (hs : s.Counted) (new : ∃ e ∈ s.runList, e.number = n ∧ e.playback = p)
  (free : ownedBy n (s.channel p k.channel) = false)
include hs new

/-- The two entries a takeover counts anew are of its playback. -/
theorem State.playback_of_takeover (he : e ∈ s.runList)
    (h : e.number = n ∨ ownedBy e.number (s.channel p k.channel) = true) : e.playback = p := by
  rcases h with hn | ho
  · obtain ⟨x, hx, hxn, hxp⟩ := new
    rw [← List.inj_on_of_nodup_map hs.numbers hx he (hxn.trans hn.symm), hxp]
  · obtain ⟨o, ho, hon⟩ := ownedBy_iff.1 ho
    exact hs.playback_of_owner he ho hon

include free

/-- What a takeover counts of each entry: one more for the new owner, one less for the old. -/
theorem State.recounted_takeover (he : e ∈ s.runList) : e.recounted (s.takeover firing n p k) =
    if e.number = n then { e with owned := e.owned + 1 } else e.released (s.channel p k.channel) := by
  have own := hs.counts e he
  have here := State.playback_of_takeover (k := k) hs new he
  have count := State.ownedOn_takeover (s := s) (firing := firing) (n := n) (p := p) k e.playback e.number
  have owned : (e.recounted (s.takeover firing n p k)).owned = if e.number = n then e.owned + 1
      else if ownedBy e.number (s.channel p k.channel) then e.owned - 1 else e.owned := by
    rw [RunEntry.recounted_owned]
    by_cases hn : e.number = n
    · rw [hn] at count own ⊢
      simp only [here (.inl hn), free, and_true, and_false, if_true, if_false, Bool.false_eq_true] at count own ⊢
      omega
    · by_cases ho : ownedBy e.number (s.channel p k.channel) = true
      · simp only [hn, ho, here (.inr ho), and_true, and_false, if_true, if_false] at count own ⊢
        omega
      · simp only [hn, ho, and_false, if_false, Bool.false_eq_true] at count own ⊢
        omega
  have only_owned : e.recounted (s.takeover firing n p k) =
      { e with owned := (e.recounted (s.takeover firing n p k)).owned } := rfl
  rw [only_owned, owned]
  unfold RunEntry.released
  split
  · rfl
  · split <;> rfl

/-- Only the old owner is tested for removal, and every other entry would pass the test. -/
theorem State.stays_takeover (he : e ∈ s.runList) (stays : e.number = n ∨ e.stays firing = true) :
    (!ownedBy e.number (s.channel p k.channel) || (e.released (s.channel p k.channel)).stays firing) =
      (decide (e.number = n) || (e.recounted (s.takeover firing n p k)).stays firing) := by
  rw [State.recounted_takeover hs new free he]
  by_cases hn : e.number = n
  · rw [hn, free]
    simp
  · by_cases ho : ownedBy e.number (s.channel p k.channel) = true
    · simp [hn, ho]
    · simp [hn, ho, RunEntry.released, stays.resolve_left hn]

theorem State.takeover_runList (stays : ∀ e ∈ s.runList, e.number = n ∨ e.stays firing = true) :
    (s.takeover firing n p k).runList =
      (s.takeover firing n p k).kept (fun e => e.number = n || e.stays firing) s.runList := by
  have shape : (s.takeover firing n p k).runList = (s.release firing (s.channel p k.channel)).runList.map fun e =>
      if e.number = n then { e with owned := e.owned + 1 } else e := rfl
  have tested : s.runList.filter ((fun e => !ownedBy e.number (s.channel p k.channel) || e.stays firing) ∘
        RunEntry.released (s.channel p k.channel)) =
      s.runList.filter ((fun e : RunEntry => decide (e.number = n) || e.stays firing) ∘
        RunEntry.recounted (s.takeover firing n p k)) := by
    refine List.filter_congr fun e he => ?_
    rw [Function.comp_apply, Function.comp_apply, RunEntry.released_number, RunEntry.recounted_number]
    exact State.stays_takeover hs new free he (stays e he)
  rw [shape, State.release_runList _ hs.numbers, List.filter_map, List.map_map, State.kept, List.filter_map, tested]
  refine List.map_congr_left fun e he => ?_
  rw [State.recounted_takeover hs new free (List.mem_of_mem_filter he), Function.comp_apply, RunEntry.released_number]
  by_cases hn : e.number = n
  · rw [if_pos hn, if_pos hn]
    unfold RunEntry.released
    rw [hn, free]
    rfl
  · rw [if_neg hn, if_neg hn]

theorem State.takeover_takes (stays : ∀ e ∈ s.runList, e.number = n ∨ e.stays firing = true) :
    Takes firing n s (s.takeover firing n p k) := by
  have runList := State.takeover_runList hs new free stays
  refine ⟨runList, fun q m hm => ?_, ?_, ?_, ?_⟩
  · have := State.ownedOn_takeover (s := s) (firing := firing) (n := n) (p := p) k q m
    simp only [hm, and_false, if_false] at this
    omega
  · exact (State.release_leaves _ hs.numbers).trans (.of_same (State.tags_modEntry n fun _ => rfl) rfl)
  · refine .of_kept runList hs.numbers (fun q c o ho => ?_) fun e he => by simp [RunEntry.stays_of_owned he]
    rw [State.channel_takeover] at ho
    split at ho
    · next h =>
      cases ho
      exact h.1 ▸ new
    · exact hs.owners q c o ho
  · exact SameButEntries.trans (State.release_same (firing := firing) (s.channel p k.channel)) rfl

end

theorem Takes.refl (hs : s.Counted) (stays : ∀ e ∈ s.runList, e.number = n ∨ e.stays firing = true) :
    Takes firing n s s where
  runList := (hs.kept_self fun e he => by simpa using stays e he).symm
  fewer _ _ _ := Nat.le_refl _
  leaves := .refl s
  counted := hs
  same := .refl s

theorem RunEntry.stays_mono {e e' : RunEntry} (h : e.owned ≤ e'.owned) (hf : e.follow = e'.follow)
    (hb : e.birth = e'.birth) (he : e.stays firing = true) : e'.stays firing = true := by
  unfold RunEntry.stays at *
  simp only [Bool.or_eq_true, decide_eq_true_eq] at *
  rw [← hf, ← hb]
  rcases he with (he | he) | he
  · exact .inl (.inl (by omega))
  · exact .inl (.inr he)
  · exact .inr he

theorem Takes.trans (h : Takes firing n s t) (k : Takes firing n t u) : Takes firing n s u where
  runList := by
    rw [k.runList, h.runList]
    refine State.kept_kept fun e _ => ?_
    by_cases hn : e.number = n
    · simp [hn]
    · simp only [RunEntry.recounted_number, hn, decide_false, Bool.false_or]
      rw [Bool.and_eq_right_iff_imp]
      exact RunEntry.stays_mono (k.fewer e.playback e.number hn) rfl rfl
  fewer p m hm := (k.fewer p m hm).trans (h.fewer p m hm)
  leaves := h.leaves.trans k.leaves
  counted := k.counted
  same := h.same.trans k.same

theorem Takes.stays (h : Takes firing n s t) : ∀ e ∈ t.runList, e.number = n ∨ e.stays firing = true := by
  intro e he
  rw [h.runList] at he
  obtain ⟨x, -, -, hk⟩ := State.mem_kept.1 he
  simpa using hk

theorem Takes.new (h : Takes firing n s t) (new : ∃ e ∈ s.runList, e.number = n ∧ e.playback = p) :
    ∃ e ∈ t.runList, e.number = n ∧ e.playback = p := by
  obtain ⟨e, he, hn, hp⟩ := new
  exact ⟨e.recounted t, h.runList ▸ State.mem_kept.2 ⟨e, he, rfl, by simp [hn]⟩, hn, hp⟩

/-- The takeovers of a start, of channels named once that the new entry does not own yet. -/
theorem State.takeovers_takes (takes : List Take) (hs : s.Counted)
    (stays : ∀ e ∈ s.runList, e.number = n ∨ e.stays firing = true)
    (new : ∃ e ∈ s.runList, e.number = n ∧ e.playback = p) (once : (takes.map (·.channel)).Nodup)
    (free : ∀ k ∈ takes, ownedBy n (s.channel p k.channel) = false) :
    Takes firing n s (takes.foldl (fun s k => s.takeover firing n p k) s) ∧
    (∀ k ∈ takes, (takes.foldl (fun s k => s.takeover firing n p k) s).channel p k.channel =
      ⟨(s.channel p k.channel).level, some (k.ownership n (s.channel p k.channel).level)⟩) ∧
    (∀ q c, q ≠ p ∨ c ∉ takes.map (·.channel) →
      (takes.foldl (fun s k => s.takeover firing n p k) s).channel q c = s.channel q c) := by
  induction takes generalizing s with
  | nil => exact ⟨.refl hs stays, by simp, fun _ _ _ => rfl⟩
  | cons k ks ih =>
    obtain ⟨hk, once⟩ := List.nodup_cons.1 once
    have first := State.takeover_takes hs new (free k List.mem_cons_self) stays
    have apart {j : Take} (hj : j ∈ ks) : k.channel ≠ j.channel := fun e => hk (List.mem_map.2 ⟨j, hj, e.symm⟩)
    have other {j : Take} (hj : j ∈ ks) : (s.takeover firing n p k).channel p j.channel = s.channel p j.channel := by
      rw [State.channel_takeover, if_neg fun h => apart hj h.2]
    obtain ⟨takes, taken, others⟩ := ih first.counted first.stays (first.new new) once fun j hj => by
      rw [other hj]
      exact free j (List.mem_cons_of_mem _ hj)
    refine ⟨first.trans takes, fun j hj => ?_, fun q c hc => ?_⟩
    · rcases List.mem_cons.1 hj with rfl | hj
      · rw [List.foldl_cons, others p j.channel (.inr hk), State.channel_takeover, if_pos ⟨rfl, rfl⟩]
      · rw [List.foldl_cons, taken j hj, other hj]
    · rw [List.map_cons, List.mem_cons, not_or] at hc
      rw [List.foldl_cons, others q c (hc.imp id And.right), State.channel_takeover, if_neg]
      rintro ⟨rfl, rfl⟩
      exact hc.elim (fun h => h rfl) fun h => h.1 rfl

end Sys2Proof.Machine
end

section
namespace Sys2Proof.Machine

variable {s t u : State} {firing : List Nat} {n : Fin 16} {p : Fin 4}

/-! ### Evaluation (R28, R29) -/

/-- How many records satisfy one test and not a narrower one. -/
theorem Table.count_and_not {m : Nat} {α : Type} (x : Table m α) {p q : α → Bool} (h : ∀ a, q a = true → p a = true) :
    (x.count fun a => p a && !q a) + x.count q = x.count p := by
  unfold Table.count
  induction x.cells with
  | nil => rfl
  | cons a l ih =>
    have := h a
    cases hp : p a <;> cases hq : q a <;> simp_all <;> omega

theorem completesAt_owned {e : Nat} {x : ChannelRecord} (h : completesAt n e x = true) : ownedBy n x = true := by
  unfold completesAt at h
  unfold ownedBy
  cases hx : x.own with
  | none => simp [hx] at h
  | some o => simpa [hx] using (by simpa [hx] using h : o.owner = n ∧ _).1

/-- A record an entry does not own is not touched by its evaluation. -/
theorem evalRecord_of_not_owned {e : Nat} {x : ChannelRecord} (h : ownedBy n x = false) : evalRecord n e x = x := by
  unfold evalRecord
  split
  · next o ho =>
    rw [if_neg]
    rintro rfl
    simp [ownedBy, ho] at h
  · rfl

/-- How many records of its playback an entry completes at its clock (R29). -/
def State.finishing (s : State) (e : RunEntry) : Nat := (s.channels.get e.playback).count (completesAt e.number e.clock)

section
variable {e : RunEntry}

/-- The state once entry `e` has its records and its count evaluated, its test for removal still to come (R28, R29). -/
def State.evaluated (s : State) (e : RunEntry) : State :=
  State.modEntry
    { s with channels := s.channels.set e.playback ((s.channels.get e.playback).map (evalRecord e.number e.clock)) }
    e.number fun x => { x with owned := x.owned - s.finishing e }

theorem State.evaluate_eq (hs : s.Counted) (he : e ∈ s.runList) :
    s.evaluate firing e.number =
      if s.finishing e = 0 then s.evaluated e else (s.evaluated e).testLeave firing e.number := by
  unfold State.evaluate
  rw [hs.entry?_eq he]
  rfl

theorem State.evaluated_numbers (hs : s.Counted) (e : RunEntry) : ((s.evaluated e).runList.map (·.number)).Nodup :=
  State.numbers_modEntry e.number (fun _ => rfl) hs.numbers

theorem State.evaluate_channels (hs : s.Counted) (he : e ∈ s.runList) :
    (s.evaluate firing e.number).channels =
      s.channels.set e.playback ((s.channels.get e.playback).map (evalRecord e.number e.clock)) := by
  rw [State.evaluate_eq hs he]
  split
  · rfl
  · exact State.testLeave_channels _ _

theorem State.channel_evaluate (hs : s.Counted) (he : e ∈ s.runList) (q : Fin 4) (c : Fin 512) :
    (s.evaluate firing e.number).channel q c = evalRecord e.number e.clock (s.channel q c) := by
  unfold State.channel
  rw [State.evaluate_channels hs he, Table.get_set]
  split
  · next h => rw [Table.get_map, h]
  · next h =>
    refine (evalRecord_of_not_owned ?_).symm
    by_contra ho
    obtain ⟨o, ho, hn⟩ := ownedBy_iff.1 (by simpa using ho)
    exact h (hs.playback_of_owner he (p := q) (c := c) ho hn)

/-- An evaluation takes from the counts what the entry completes. -/
theorem State.ownedOn_evaluate (hs : s.Counted) (he : e ∈ s.runList) (q : Fin 4) (m : Fin 16) :
    (s.evaluate firing e.number).ownedOn q m + (if q = e.playback ∧ m = e.number then s.finishing e else 0) =
      s.ownedOn q m := by
  unfold State.ownedOn
  rw [State.evaluate_channels hs he, Table.get_set]
  by_cases hq : e.playback = q
  · subst hq
    rw [if_pos rfl, Table.count_map]
    simp only [ownedBy_evalRecord]
    by_cases hm : m = e.number
    · subst hm
      simp only [decide_true, Bool.true_and, and_self, if_true]
      exact Table.count_and_not _ fun _ => completesAt_owned
    · simp [hm]
  · simp [hq, Ne.symm hq]

theorem State.evaluate_leaves (hs : s.Counted) (he : e ∈ s.runList) : Leaves s (s.evaluate firing e.number) := by
  have same : Leaves s (s.evaluated e) := .of_same (State.tags_modEntry _ fun _ => rfl) rfl
  rw [State.evaluate_eq hs he]
  split
  · exact same
  · exact same.trans (State.testLeave_leaves _ _ (State.evaluated_numbers hs e))

theorem State.evaluate_same (hs : s.Counted) (he : e ∈ s.runList) : SameButEntries s (s.evaluate firing e.number) := by
  rw [State.evaluate_eq hs he]
  split
  · rfl
  · exact SameButEntries.trans (t := s.evaluated e) rfl (State.testLeave_same _ _)

/-- Evaluation recounts the entry, and removes it if it has completed a record and nothing else keeps it. -/
theorem State.evaluate_runList (hs : s.Counted) (he : e ∈ s.runList) :
    (s.evaluate firing e.number).runList = (s.evaluate firing e.number).kept
      (fun x => x.number ≠ e.number || s.finishing e = 0 || x.stays firing) s.runList := by
  have recount : s.runList.map (fun x => if x.number = e.number then { x with owned := x.owned - s.finishing e } else x) =
      s.runList.map (RunEntry.recounted (s.evaluate firing e.number)) := by
    refine List.map_congr_left fun x hx => ?_
    have count := State.ownedOn_evaluate (firing := firing) hs he x.playback x.number
    have own := hs.counts x hx
    by_cases hn : x.number = e.number
    · obtain rfl := List.inj_on_of_nodup_map hs.numbers hx he hn
      simp only [and_self, if_true] at count ⊢
      obtain ⟨_, _, _, _, _, _, _⟩ := x
      simp only [RunEntry.recounted, RunEntry.mk.injEq, true_and, and_true]
      unfold State.ownedOn at count own
      dsimp only at count own
      omega
    · rw [if_neg hn, RunEntry.recounted_of_count]
      simp only [hn, and_false, if_false] at count
      omega
  have shape : (s.evaluate firing e.number).runList =
      (s.runList.map fun x => if x.number = e.number then { x with owned := x.owned - s.finishing e } else x).filter
        fun x => x.number ≠ e.number || s.finishing e = 0 || x.stays firing := by
    rw [State.evaluate_eq hs he]
    split
    · next h => simp [h, State.evaluated, State.modEntry, State.setRunList]
    · next h =>
      rw [State.testLeave_runList _ _ (State.evaluated_numbers hs e)]
      simp [h, State.evaluated, State.modEntry, State.setRunList]
  rw [shape, recount]
  rfl

theorem State.evaluate_counted (hs : s.Counted) (he : e ∈ s.runList) : (s.evaluate firing e.number).Counted := by
  refine .of_kept (State.evaluate_runList hs he) hs.numbers (fun q c o ho => ?_) fun x hx => by
    simp [RunEntry.stays_of_owned hx]
  have owned : ownedBy o.owner ((s.evaluate firing e.number).channel q c) = true := ownedBy_iff.2 ⟨o, ho, rfl⟩
  rw [State.channel_evaluate hs he, ownedBy_evalRecord, Bool.and_eq_true] at owned
  obtain ⟨o', ho', hn⟩ := ownedBy_iff.1 owned.1
  exact hn ▸ hs.owners q c o' ho'

end

/-! ### The run list through what leaves it and what joins it (R25) -/

theorem State.RunListLegal.of_tags (h : s.RunListLegal) (sub : t.tags.Sublist s.tags) (hb : s.births ≤ t.births) :
    t.RunListLegal where
  length_le := by
    have := sub.length_le
    simp only [State.tags, List.length_map] at this
    exact this.trans h.length_le
  numbers := by
    have numbers := h.numbers
    rw [map_number_eq] at numbers ⊢
    exact (sub.map _).nodup numbers
  oldest_first := by
    have oldest := h.oldest_first
    rw [map_birth_eq] at oldest ⊢
    exact oldest.sublist (sub.map _)
  births_lt e he := by
    obtain ⟨x, hx, hxe⟩ := List.mem_map.1 (sub.subset (List.mem_map_of_mem (f := RunEntry.tag) he))
    have : x.birth = e.birth := congrArg Tag.birth hxe
    have := h.births_lt x hx
    omega

theorem State.RunListLegal.leaves (h : s.RunListLegal) (k : Leaves s t) (hb : s.births ≤ t.births) : t.RunListLegal :=
  h.of_tags k.sub hb

theorem State.RunListLegal.births_nodup (h : s.RunListLegal) : (s.runList.map (·.birth)).Nodup :=
  h.oldest_first.imp fun h => Nat.ne_of_lt h

/-- With room in the list its lowest free number is free, and every lower one is taken (R25). -/
theorem State.lowestFree_spec (room : s.runList.length < 16) :
    (∀ e ∈ s.runList, e.number ≠ s.lowestFree) ∧ ∀ m : Fin 16, m < s.lowestFree → ∃ e ∈ s.runList, e.number = m := by
  have free_iff (m : Fin 16) : (s.entry? m).isNone = true ↔ ∀ e ∈ s.runList, e.number ≠ m := by
    simp [State.entry?, Option.isNone_iff_eq_none, List.find?_eq_none]
  have all : (List.ofFn fun m : Fin 16 => m) = List.finRange 16 := List.ofFn_id 16
  obtain ⟨m, hm⟩ : ∃ m : Fin 16, (s.entry? m).isNone = true := by
    by_contra hn
    have covered : Finset.univ ⊆ (s.runList.map (·.number)).toFinset := fun m _ => by
      simp only [not_exists, free_iff, not_forall, not_not] at hn
      obtain ⟨e, he, rfl⟩ := hn m
      exact List.mem_toFinset.2 (List.mem_map_of_mem he)
    have := (Finset.card_le_card covered).trans (List.toFinset_card_le _)
    simp only [Finset.card_univ, Fintype.card_fin, List.length_map] at this
    omega
  cases hf : (List.finRange 16).find? fun m => (s.entry? m).isNone with
  | none => exact absurd hm (List.find?_eq_none.1 hf m (List.mem_finRange m))
  | some k =>
    have hk : s.lowestFree = k := by
      unfold State.lowestFree
      rw [all, hf]
      rfl
    obtain ⟨free, before, after, split, taken⟩ := List.find?_eq_some_iff_append.1 hf
    rw [hk]
    refine ⟨(free_iff k).1 free, fun m hm => ?_⟩
    have sorted := List.pairwise_lt_finRange 16
    rw [split, List.pairwise_append] at sorted
    have mem : m ∈ before ++ k :: after := split ▸ List.mem_finRange m
    have := taken m (by
      rcases List.mem_append.1 mem with h | h
      · exact h
      · rcases List.mem_cons.1 h with rfl | h
        · exact absurd hm (lt_irrefl _)
        · exact absurd hm (lt_asymm ((List.pairwise_cons.1 sorted.2.1).1 m h)))
    rw [Bool.not_eq_true', ← Bool.not_eq_true, free_iff] at this
    simpa using this

end Sys2Proof.Machine
end

section
namespace Sys2Proof.Machine

variable {s t u : State} {firing : List Nat} {n : Fin 16} {p : Fin 4}

/-! ### A start with room in the run list (R24 to R28) -/

/-- The run entry a start creates. -/
def State.newEntry (s : State) (kind : EntryKind) (p : Fin 4) (who : StartedBy) : RunEntry :=
  ⟨s.lowestFree, s.births, kind, p, 0, 0, who⟩

/-- What a start with room makes of a state: the run list with the new entry recounted, the entries left with nothing gone, the
channels taken over at clock 0. -/
structure Started (firing : List Nat) (kind : EntryKind) (p : Fin 4) (who : StartedBy) (takes : List Take) (s v : State) :
    Prop where
  runList : v.runList = v.kept (fun e => (e.number = s.lowestFree && takes.isEmpty) || e.stays firing)
    (s.runList ++ [s.newEntry kind p who])
  taken : ∀ k ∈ takes, v.channel p k.channel = evalOwned (k.ownership s.lowestFree (s.channel p k.channel).level) 0
  others : ∀ q c, q ≠ p ∨ c ∉ takes.map (·.channel) → v.channel q c = s.channel q c
  new_ownedOn : takes = [] → v.ownedOn p s.lowestFree = 0
  leaves : Leaves (s.createEntry kind p who) v
  counted : v.Counted
  same : SameButEntries (s.createEntry kind p who) v

theorem State.makeRoom_of_room (room : s.runList.length < 16) : s.makeRoom = s := by
  unfold State.makeRoom
  rw [if_neg]
  exact Nat.not_le.2 room

theorem State.createEntry_runList (kind : EntryKind) (p : Fin 4) (who : StartedBy) :
    (s.createEntry kind p who).runList = s.runList ++ [s.newEntry kind p who] := rfl

/-- No record is owned under a number that no entry has. -/
theorem State.Counted.free_of_unlisted (hs : s.Counted) (hn : ∀ e ∈ s.runList, e.number ≠ n) (q : Fin 4) (c : Fin 512) :
    ownedBy n (s.channel q c) = false := by
  by_contra ho
  obtain ⟨o, hown, rfl⟩ := ownedBy_iff.1 (by simpa using ho)
  obtain ⟨e, he, hen, -⟩ := hs.owners q c o hown
  exact hn e he hen

theorem State.ownedOn_eq_zero {q : Fin 4} (h : ∀ c, ownedBy n (s.channel q c) = false) : s.ownedOn q n = 0 := by
  unfold State.ownedOn Table.count
  rw [List.length_eq_zero_iff, List.filter_eq_nil_iff]
  intro x hx
  obtain ⟨c, rfl⟩ := Table.mem_cells.1 hx
  exact Bool.eq_false_iff.1 (h c)

theorem State.createEntry_counted (hs : s.Counted) (room : s.runList.length < 16) (kind : EntryKind) (p : Fin 4)
    (who : StartedBy) : (s.createEntry kind p who).Counted where
  numbers := by
    rw [State.createEntry_runList, List.map_append, List.nodup_append']
    refine ⟨hs.numbers, by simp, ?_⟩
    intro m hm hm'
    obtain ⟨e, he, rfl⟩ := List.mem_map.1 hm
    exact (State.lowestFree_spec room).1 e he (by simpa [State.newEntry] using hm')
  owners q c o ho := by
    obtain ⟨e, he, h⟩ := hs.owners q c o ho
    exact ⟨e, List.mem_append_left _ he, h⟩
  counts e he := by
    rcases List.mem_append.1 he with he | he
    · exact hs.counts e he
    · obtain rfl := List.mem_singleton.1 he
      exact (State.ownedOn_eq_zero (hs.free_of_unlisted (State.lowestFree_spec room).1 p)).symm

theorem RunEntry.stays_of_busy (hs : s.OwnersLegal firing) {e : RunEntry} (he : e ∈ s.runList) : e.stays firing = true := by
  unfold RunEntry.stays
  rcases hs.busy e he with h | h | h <;> simp [h]

/-- The takeovers of a start, from the state in which its entry has been created. -/
structure TakenOver (firing : List Nat) (kind : EntryKind) (p : Fin 4) (who : StartedBy) (takes : List Take) (s w : State) :
    Prop where
  moved : Takes firing s.lowestFree (s.createEntry kind p who) w
  taken : ∀ k ∈ takes, w.channel p k.channel =
    ⟨(s.channel p k.channel).level, some (k.ownership s.lowestFree (s.channel p k.channel).level)⟩
  others : ∀ q c, q ≠ p ∨ c ∉ takes.map (·.channel) → w.channel q c = s.channel q c

section
variable {kind : EntryKind} {who : StartedBy} {takes : List Take} {w : State}

theorem State.takeovers_takenOver (hs : s.OwnersLegal firing) (room : s.runList.length < 16)
    (once : (takes.map (·.channel)).Nodup) : TakenOver firing kind p who takes s
      (takes.foldl (fun s' k => s'.takeover firing s.lowestFree p k) (s.createEntry kind p who)) := by
  have stays : ∀ e ∈ (s.createEntry kind p who).runList, e.number = s.lowestFree ∨ e.stays firing = true := by
    intro e he
    rcases List.mem_append.1 he with he | he
    · exact .inr (RunEntry.stays_of_busy hs he)
    · obtain rfl := List.mem_singleton.1 he
      exact .inl rfl
  have free := hs.counted.free_of_unlisted (State.lowestFree_spec room).1
  obtain ⟨takesOver, taken, others⟩ := State.takeovers_takes (p := p) takes
    (State.createEntry_counted hs.counted room kind p who) stays
    ⟨s.newEntry kind p who, List.mem_append_right _ List.mem_cons_self, rfl, rfl⟩ once fun k _ => free p k.channel
  exact ⟨takesOver, taken, others⟩

namespace TakenOver
variable (h : TakenOver firing kind p who takes s w)
include h

theorem listed : (s.newEntry kind p who).recounted w ∈ w.runList := by
  rw [h.moved.runList]
  exact State.mem_kept.2 ⟨_, List.mem_append_right _ List.mem_cons_self, rfl, by simp [State.newEntry]⟩

theorem ownedOn_nil (free : ∀ q c, ownedBy s.lowestFree (s.channel q c) = false) (ht : takes = []) :
    w.ownedOn p s.lowestFree = 0 := by
  subst ht
  exact State.ownedOn_eq_zero fun c => by
    rw [h.others p c (.inr (by simp))]
    exact free p c

theorem ownedOn_cons (ht : takes ≠ []) : 0 < w.ownedOn p s.lowestFree := by
  obtain ⟨k, hk⟩ := List.exists_mem_of_ne_nil takes ht
  refine State.ownedOn_pos (c := k.channel) (o := k.ownership s.lowestFree (s.channel p k.channel).level) ?_
  rw [h.taken k hk]

theorem ownedOn_evaluate (q : Fin 4) (m : Fin 16) :
    (w.evaluate firing s.lowestFree).ownedOn q m +
        (if q = p ∧ m = s.lowestFree then w.finishing ((s.newEntry kind p who).recounted w) else 0) = w.ownedOn q m :=
  State.ownedOn_evaluate h.moved.counted h.listed q m

/-- What the takeovers and the evaluation keep: the new entry without a take, and every entry with a reason to stand. -/
theorem evaluate_runList (hs : s.OwnersLegal firing) (room : s.runList.length < 16) :
    (w.evaluate firing s.lowestFree).runList = (w.evaluate firing s.lowestFree).kept
      (fun e => (e.number = s.lowestFree && takes.isEmpty) || e.stays firing) (s.runList ++ [s.newEntry kind p who]) := by
  have free := hs.counted.free_of_unlisted (State.lowestFree_spec room).1
  have kept : (w.evaluate firing s.lowestFree).runList = _ := State.evaluate_runList h.moved.counted h.listed
  rw [kept, h.moved.runList]
  refine State.kept_kept fun x hx => ?_
  show ((decide (x.number = s.lowestFree) || (x.recounted w).stays firing) &&
      (decide (x.number ≠ s.lowestFree) || decide (w.finishing ((s.newEntry kind p who).recounted w) = 0) ||
        (x.recounted (w.evaluate firing s.lowestFree)).stays firing)) =
    (decide (x.number = s.lowestFree) && takes.isEmpty || (x.recounted (w.evaluate firing s.lowestFree)).stays firing)
  by_cases hn : x.number = s.lowestFree
  · have count := h.ownedOn_evaluate p s.lowestFree
    simp only [and_self, if_true] at count
    simp only [hn, ne_eq, not_true_eq_false, decide_true, decide_false, Bool.true_or, Bool.true_and, Bool.false_or]
    rcases eq_or_ne takes [] with ht | ht
    · have : w.finishing ((s.newEntry kind p who).recounted w) = 0 := by
        have := h.ownedOn_nil free ht
        omega
      simp [ht, this]
    · rw [List.isEmpty_eq_false_iff.2 ht, Bool.false_or, Bool.or_eq_right_iff_imp, decide_eq_true_eq]
      intro done
      refine RunEntry.stays_of_owned ?_
      have some_owned := h.ownedOn_cons ht
      have created := State.createEntry_counted hs.counted room kind p who
      obtain rfl : x = s.newEntry kind p who :=
        List.inj_on_of_nodup_map created.numbers hx (List.mem_append_right _ List.mem_cons_self) hn
      show 0 < (w.evaluate firing s.lowestFree).ownedOn p s.lowestFree
      omega
  · have same : x.recounted w = x.recounted (w.evaluate firing s.lowestFree) := by
      have count := h.ownedOn_evaluate x.playback x.number
      simp only [hn, and_false, if_false, Nat.add_zero] at count
      unfold RunEntry.recounted
      unfold State.ownedOn at count
      rw [count]
    simp [hn, same]

theorem started (hs : s.OwnersLegal firing) (room : s.runList.length < 16) :
    Started firing kind p who takes s (w.evaluate firing s.lowestFree) where
  runList := h.evaluate_runList hs room
  taken k hk := by
    have channel : (w.evaluate firing s.lowestFree).channel p k.channel = _ :=
      State.channel_evaluate h.moved.counted h.listed p k.channel
    rw [channel, h.taken k hk]
    exact if_pos rfl
  others q c hc := by
    have channel : (w.evaluate firing s.lowestFree).channel q c = _ :=
      State.channel_evaluate h.moved.counted h.listed q c
    rw [channel, h.others q c hc]
    exact evalRecord_of_not_owned (hs.counted.free_of_unlisted (State.lowestFree_spec room).1 q c)
  new_ownedOn ht := by
    have count := h.ownedOn_evaluate p s.lowestFree
    have := h.ownedOn_nil (hs.counted.free_of_unlisted (State.lowestFree_spec room).1) ht
    omega
  leaves := h.moved.leaves.trans (State.evaluate_leaves h.moved.counted h.listed)
  counted := State.evaluate_counted h.moved.counted h.listed
  same := h.moved.same.trans (State.evaluate_same h.moved.counted h.listed)

end TakenOver

/-- A start with room takes over the channels it names and no other. -/
theorem State.start_started (hs : s.OwnersLegal firing) (room : s.runList.length < 16)
    (once : (takes.map (·.channel)).Nodup) : Started firing kind p who takes s (s.start firing kind p who takes) := by
  unfold State.start
  rw [State.makeRoom_of_room room]
  exact (State.takeovers_takenOver hs room once).started hs room

end

end Sys2Proof.Machine
end

section
namespace Sys2Proof.Machine

variable {s t u : State} {firing : List Nat} {n : Fin 16} {p : Fin 4}

/-! ### The test for removal by birth (R26, R28) -/

theorem State.RunListLegal.born?_eq (h : s.RunListLegal) {e : RunEntry} (he : e ∈ s.runList) :
    s.born? e.birth = some e := by
  unfold State.born?
  cases hf : s.runList.find? fun x => x.birth = e.birth with
  | none => exact absurd (List.find?_eq_none.1 hf e he) (by simp)
  | some x =>
    have hx : x.birth = e.birth := by simpa using List.find?_some hf
    rw [List.inj_on_of_nodup_map h.births_nodup (List.mem_of_find?_eq_some hf) he hx]

theorem State.born?_eq_none {b : Nat} (h : s.born? b = none) : ∀ e ∈ s.runList, e.birth ≠ b := fun e he => by
  simpa using List.find?_eq_none.1 h e he

/-- In a legal list the test by birth is the test by number. -/
theorem State.RunListLegal.testLeaveBorn_eq (h : s.RunListLegal) {e : RunEntry} (he : e ∈ s.runList) (firing : List Nat) :
    s.testLeaveBorn firing e.birth = s.testLeave firing e.number := by
  have by_number : s.entry? e.number = some e := by
    unfold State.entry?
    cases hf : s.runList.find? fun x => x.number = e.number with
    | none => exact absurd (List.find?_eq_none.1 hf e he) (by simp)
    | some x =>
      have hx : x.number = e.number := by simpa using List.find?_some hf
      rw [List.inj_on_of_nodup_map h.numbers (List.mem_of_find?_eq_some hf) he hx]
  unfold State.testLeaveBorn State.testLeave
  rw [h.born?_eq he, by_number]

theorem State.testLeaveBorn_unborn {b : Nat} (h : s.born? b = none) : s.testLeaveBorn firing b = s := by
  unfold State.testLeaveBorn
  rw [h]

theorem State.RunListLegal.testLeaveBorn_runList (h : s.RunListLegal) (firing : List Nat) (b : Nat) :
    (s.testLeaveBorn firing b).runList = s.runList.filter fun e => e.birth ≠ b || e.stays firing := by
  cases hb : s.born? b with
  | none =>
    rw [State.testLeaveBorn_unborn hb]
    refine (List.filter_eq_self.2 fun e he => ?_).symm
    simp [State.born?_eq_none hb e he]
  | some e =>
    obtain ⟨he, rfl⟩ := s.born?_eq_some hb
    rw [h.testLeaveBorn_eq he, State.testLeave_runList firing e.number h.numbers]
    refine List.filter_congr fun x hx => ?_
    have same : x.number = e.number ↔ x.birth = e.birth :=
      ⟨fun hn => by rw [List.inj_on_of_nodup_map h.numbers hx he hn],
        fun hb => by rw [List.inj_on_of_nodup_map h.births_nodup hx he hb]⟩
    simp [same]

theorem State.RunListLegal.testLeaveBorn_leaves (h : s.RunListLegal) (firing : List Nat) (b : Nat) :
    Leaves s (s.testLeaveBorn firing b) := by
  obtain h' | ⟨e, he, -, h'⟩ := s.testLeaveBorn_cases firing b <;> rw [h']
  · exact .refl s
  · exact State.removeEntry_leaves (s.born?_eq_some he).1 h.numbers

@[simp] theorem State.testLeaveBorn_channels (firing : List Nat) (b : Nat) :
    (s.testLeaveBorn firing b).channels = s.channels := by
  obtain h | ⟨e, -, -, h⟩ := s.testLeaveBorn_cases firing b <;> rw [h]
  rw [s.removeEntry_eq]

@[simp] theorem State.testLeaveBorn_births (firing : List Nat) (b : Nat) :
    (s.testLeaveBorn firing b).births = s.births := by
  obtain h | ⟨e, -, -, h⟩ := s.testLeaveBorn_cases firing b <;> rw [h]
  rw [s.removeEntry_eq]

@[simp] theorem State.testLeaveBorn_playbacks (firing : List Nat) (b : Nat) :
    (s.testLeaveBorn firing b).playbacks = s.playbacks := by
  obtain h | ⟨e, -, -, h⟩ := s.testLeaveBorn_cases firing b <;> rw [h]
  rw [s.removeEntry_eq]

/-! ### A start as the manual states it -/

theorem State.makeRoom_has_room (h : s.runList.length ≤ 16) : s.makeRoom.runList.length < 16 := by
  by_cases room : s.runList.length < 16
  · rw [State.makeRoom_of_room room]
    exact room
  · have full : Config.runEntries ≤ s.runList.length := Nat.not_lt.1 room
    unfold State.makeRoom
    rw [if_pos full]
    cases hl : s.runList with
    | nil => simp [hl] at room
    | cons e rest =>
      have list : (s.forceComplete e).runList = s.runList.filter fun x => x.number ≠ e.number := by
        unfold State.forceComplete
        show (State.removeEntry _ e).runList = _
        rw [State.removeEntry_eq]
      rw [list, hl, List.filter_cons]
      have := List.length_filter_le (fun x => decide (x.number ≠ e.number)) rest
      rw [hl, List.length_cons] at h
      simp only [ne_eq, not_true_eq_false, decide_false, Bool.false_eq_true, if_false] at *
      omega

theorem State.start_makeRoom (h : s.runList.length ≤ 16) (kind : EntryKind) (p : Fin 4) (who : StartedBy)
    (takes : List Take) : s.start firing kind p who takes = s.makeRoom.start firing kind p who takes := by
  unfold State.start
  rw [State.makeRoom_of_room (State.makeRoom_has_room h)]

theorem State.createEntry_runListLegal (h : s.RunListLegal) (room : s.runList.length < 16) (kind : EntryKind) (p : Fin 4)
    (who : StartedBy) : (s.createEntry kind p who).RunListLegal where
  length_le := by
    rw [State.createEntry_runList, List.length_append]
    exact room
  numbers := by
    rw [State.createEntry_runList, List.map_append, List.nodup_append']
    refine ⟨h.numbers, by simp, ?_⟩
    intro m hm hm'
    obtain ⟨e, he, rfl⟩ := List.mem_map.1 hm
    exact (State.lowestFree_spec room).1 e he (by simpa [State.newEntry] using hm')
  oldest_first := by
    rw [State.createEntry_runList, List.map_append, List.pairwise_append]
    refine ⟨h.oldest_first, by simp, fun b hb b' hb' => ?_⟩
    obtain ⟨e, he, rfl⟩ := List.mem_map.1 hb
    obtain rfl : b' = s.births := by simpa [State.newEntry] using hb'
    exact h.births_lt e he
  births_lt e he := by
    show e.birth < s.births + 1
    rcases List.mem_append.1 he with he | he
    · exact (h.births_lt e he).trans (Nat.lt_succ_self _)
    · obtain rfl := List.mem_singleton.1 he
      exact Nat.lt_succ_self _

section
variable {kind : EntryKind} {who : StartedBy} {takes : List Take} {v : State}

/-- The run list after a start: the entries that still stand, then the new one. -/
theorem Started.runList_eq (h : Started firing kind p who takes s v) (room : s.runList.length < 16) :
    v.runList = v.standing firing s.runList ++
      if takes = [] then [s.newEntry kind p who] else v.standing firing [s.newEntry kind p who] := by
  rw [h.runList, State.kept_append]
  congr 1
  · refine State.kept_congr fun x hx => ?_
    simp [(State.lowestFree_spec room).1 x hx]
  · split
    · next ht =>
      have same : (s.newEntry kind p who).recounted v = s.newEntry kind p who :=
        RunEntry.recounted_of_count (h.new_ownedOn ht).symm
      have keep : ((s.newEntry kind p who).number = s.lowestFree && takes.isEmpty ||
          (s.newEntry kind p who).stays firing) = true := by simp [ht, State.newEntry]
      simp only [State.kept, List.map_cons, List.map_nil, same]
      exact List.filter_eq_self.2 fun x hx => by rwa [List.mem_singleton.1 hx]
    · next ht =>
      refine State.kept_congr fun x _ => ?_
      simp [ht]

/-- Settles O27: the start with room is `State.start_started`; the rest are the operations' own equations. -/
theorem startTakesOverItsChannels : Obligations.StartTakesOverItsChannels := by
  refine ⟨fun s firing kind p who takes hs room once => ?_, fun s firing kind p who takes h => ?_,
    fun _ _ _ _ _ => rfl, fun s firing b h => ?_⟩
  · have h := State.start_started (kind := kind) (p := p) (who := who) hs room once
    have created := State.createEntry_runListLegal hs.runList room kind p who
    exact ⟨(State.lowestFree_spec room).1, (State.lowestFree_spec room).2, h.taken, fun c hc => h.others p c (.inr hc),
      fun q c hq => h.others q c (.inl hq), h.runList_eq room, h.leaves.slotFollows created.births_nodup, h.same⟩
  · exact State.start_makeRoom h kind p who takes
  · refine ⟨h.testLeaveBorn_runList firing b, (h.testLeaveBorn_leaves firing b).slotFollows h.births_nodup, ?_⟩
    obtain h' | ⟨e, -, -, h'⟩ := s.testLeaveBorn_cases firing b
    · simp only [h']
    · simp only [h', s.removeEntry_eq]

end

end Sys2Proof.Machine
end

section
namespace Sys2Proof.Machine

variable {s t u : State} {firing : List Nat} {n : Fin 16} {p : Fin 4} {e : RunEntry} {b : Nat}

/-! ### Owners, counts and reasons to stand through the engine's operations (R22, R25, R26) -/

/-- Parts that owners and counts do not speak of change nothing. -/
theorem State.OwnersLegal.of_same (hs : s.OwnersLegal firing) (channels : t.channels = s.channels)
    (runList : t.runList = s.runList) (births : t.births = s.births) : t.OwnersLegal firing where
  runList := hs.runList.of_tags (by unfold State.tags; rw [runList]) births.ge
  owners q c o := by
    unfold State.channel
    rw [channels, runList]
    exact hs.owners q c o
  counts := by
    rw [channels, runList]
    exact hs.counts
  busy := by
    rw [runList]
    exact hs.busy
  firing_lt := by
    rw [births]
    exact hs.firing_lt

/-- A further entry may be firing. -/
theorem State.OwnersLegal.cons (hs : s.OwnersLegal firing) (hb : b < s.births) : s.OwnersLegal (b :: firing) where
  runList := hs.runList
  owners := hs.owners
  counts := hs.counts
  busy e he := (hs.busy e he).imp_right (Or.imp_right (List.mem_cons_of_mem b))
  firing_lt b' hb' := by
    rcases List.mem_cons.1 hb' with rfl | hb'
    · exact hb
    · exact hs.firing_lt b' hb'

/-- Entries that own nothing leave the list. -/
theorem State.Counted.filtered (hs : s.Counted) {keep : RunEntry → Bool} (channels : t.channels = s.channels)
    (runList : t.runList = s.runList.filter keep) (keeps : ∀ e ∈ s.runList, 0 < e.owned → keep e = true) : t.Counted where
  numbers := by
    rw [runList]
    exact (List.filter_sublist.map _).nodup hs.numbers
  owners q c o ho := by
    unfold State.channel at ho
    rw [channels] at ho
    obtain ⟨e, he, hn, hp⟩ := hs.owners q c o ho
    refine ⟨e, ?_, hn, hp⟩
    rw [runList]
    refine List.mem_filter.2 ⟨he, keeps e he ?_⟩
    rw [hs.counts e he, hn, hp]
    exact State.ownedOn_pos ho
  counts e he := by
    rw [runList] at he
    unfold State.ownedOn
    rw [channels]
    exact hs.counts e (List.mem_of_mem_filter he)

theorem RunEntry.stays_iff : e.stays firing = true ↔ 0 < e.owned ∨ e.follow.isSome = true ∨ e.birth ∈ firing := by
  simp [RunEntry.stays, or_assoc]

/-- The entry whose follow was firing is tested for removal, and fires no more. -/
theorem State.OwnersLegal.testLeaveBorn (hs : s.OwnersLegal (b :: firing)) : (s.testLeaveBorn firing b).OwnersLegal firing := by
  have runList := hs.runList.testLeaveBorn_runList firing b
  have counted : (s.testLeaveBorn firing b).Counted := hs.counted.filtered (State.testLeaveBorn_channels firing b) runList
    fun e _ ho => by simp [RunEntry.stays_of_owned ho]
  refine ⟨hs.runList.leaves (hs.runList.testLeaveBorn_leaves firing b) (State.testLeaveBorn_births firing b).ge,
    counted.owners, counted.counts, fun e he => ?_, fun b' hb' => ?_⟩
  · rw [runList] at he
    obtain ⟨he, hk⟩ := List.mem_filter.1 he
    rcases hs.busy e he with h | h | h
    · exact .inl h
    · exact .inr (.inl h)
    · rcases List.mem_cons.1 h with rfl | h
      · exact RunEntry.stays_iff.1 (by simpa using hk)
      · exact .inr (.inr h)
  · rw [State.testLeaveBorn_births]
    exact hs.firing_lt b' (List.mem_cons_of_mem b hb')

/-- An entry changed in its clock, or in its follow while that fires. -/
theorem State.OwnersLegal.modEntry (hs : s.OwnersLegal firing) {f : RunEntry → RunEntry} (tag : ∀ x, (f x).tag = x.tag)
    (owned : ∀ x, (f x).owned = x.owned)
    (follow : ∀ x ∈ s.runList, x.number = n → (f x).follow = x.follow ∨ x.birth ∈ firing) :
    (s.modEntry n f).OwnersLegal firing := by
  have image (x : RunEntry) : (if x.number = n then f x else x).tag = x.tag ∧ (if x.number = n then f x else x).owned = x.owned := by
    split
    · exact ⟨tag x, owned x⟩
    · exact ⟨rfl, rfl⟩
  refine ⟨hs.runList.of_tags (by rw [State.tags_modEntry n tag]) (Nat.le_refl _), fun q c o ho => ?_, fun y hy => ?_,
    fun y hy => ?_, hs.firing_lt⟩
  · obtain ⟨x, hx, hn, hp⟩ := hs.owners q c o ho
    exact ⟨_, List.mem_map_of_mem hx, (congrArg Tag.number (image x).1).trans hn, (congrArg Tag.playback (image x).1).trans hp⟩
  · obtain ⟨x, hx, rfl⟩ := List.mem_map.1 hy
    have hn : (if x.number = n then f x else x).number = x.number := congrArg Tag.number (image x).1
    have hp : (if x.number = n then f x else x).playback = x.playback := congrArg Tag.playback (image x).1
    rw [(image x).2, hn, hp]
    exact hs.counts x hx
  · obtain ⟨x, hx, rfl⟩ := List.mem_map.1 hy
    have hb : (if x.number = n then f x else x).birth = x.birth := congrArg Tag.birth (image x).1
    rw [(image x).2, hb]
    rcases hs.busy x hx with h | h | h
    · exact .inl h
    · split
      · next hn =>
        refine .inr ((follow x hx hn).imp (fun e => ?_) id)
        rw [e]
        exact h
      · exact .inr (.inl h)
    · exact .inr (.inr h)

/-- An entry evaluated at its clock (R28, R29). -/
theorem State.OwnersLegal.evaluate (hs : s.OwnersLegal firing) (he : e ∈ s.runList) :
    (s.evaluate firing e.number).OwnersLegal firing := by
  have counted := State.evaluate_counted (firing := firing) hs.counted he
  have births : (s.evaluate firing e.number).births = s.births := by rw [State.evaluate_same hs.counted he]
  refine ⟨hs.runList.leaves (State.evaluate_leaves hs.counted he) births.ge, counted.owners, counted.counts, fun y hy => ?_, ?_⟩
  · rw [State.evaluate_runList hs.counted he] at hy
    obtain ⟨x, hx, rfl, hk⟩ := State.mem_kept.1 hy
    have count := State.ownedOn_evaluate (firing := firing) hs.counted he x.playback x.number
    by_cases same : x.number ≠ e.number ∨ s.finishing e = 0
    · have unchanged : x.recounted (s.evaluate firing e.number) = x := by
        refine RunEntry.recounted_of_count ((hs.counts x hx).trans ?_)
        show s.ownedOn x.playback x.number = _
        rcases same with hn | h0
        · simp only [hn, and_false, if_false] at count
          omega
        · simp only [h0, ite_self] at count
          omega
      rw [unchanged]
      exact hs.busy x hx
    · obtain ⟨hn, h0⟩ := not_or.1 same
      exact RunEntry.stays_iff.1 (by simpa [not_not.1 hn, h0] using hk)
  · rw [births]
    exact hs.firing_lt

/-! ### Room made (R30) -/

/-- What making room makes of a state: the oldest entry of a full list has left with its channels at their targets. -/
structure Roomy (firing : List Nat) (s t : State) : Prop where
  owners : t.OwnersLegal firing
  room : t.runList.length < 16
  leaves : Leaves s t
  births : t.births = s.births
  playbacks : t.playbacks = s.playbacks

theorem ownedBy_forceRecord (n m : Fin 16) (x : ChannelRecord) :
    ownedBy m (forceRecord n x) = (decide (m ≠ n) && ownedBy m x) := by
  obtain ⟨level, own⟩ := x
  cases own with
  | none => simp [forceRecord, ownedBy]
  | some o =>
    by_cases ho : o.owner = n
    · by_cases hm : m = n <;> simp [forceRecord, ownedBy, ho, hm, eq_comm (a := n)]
    · by_cases hm : m = n
      · simp [forceRecord, ownedBy, ho, hm]
      · simp [forceRecord, ownedBy, ho, hm]

theorem State.forceComplete_channels (e : RunEntry) : (s.forceComplete e).channels =
    s.channels.modify e.playback (Table.map (forceRecord e.number)) := by
  show (State.removeEntry _ e).channels = _
  rw [State.removeEntry_eq]

theorem State.forceComplete_runList (e : RunEntry) :
    (s.forceComplete e).runList = s.runList.filter fun x => x.number ≠ e.number := by
  show (State.removeEntry _ e).runList = _
  rw [State.removeEntry_eq]

theorem State.ownedOn_forceComplete {m : Fin 16} (hm : m ≠ e.number) (q : Fin 4) :
    (s.forceComplete e).ownedOn q m = s.ownedOn q m := by
  unfold State.ownedOn
  rw [State.forceComplete_channels, Table.get_modify]
  split
  · next h =>
    rw [Table.count_map, h]
    exact congrArg _ (funext fun x => by simp [ownedBy_forceRecord, hm])
  · rfl

theorem State.forceComplete_births (e : RunEntry) : (s.forceComplete e).births = s.births := by
  show (State.removeEntry _ e).births = _
  rw [State.removeEntry_eq]

theorem State.forceComplete_leaves (hs : s.Counted) (he : e ∈ s.runList) : Leaves s (s.forceComplete e) :=
  have forced : Leaves s { s with channels := s.channels.modify e.playback (Table.map (forceRecord e.number)) } :=
    .of_same rfl rfl
  (forced.trans (State.removeEntry_leaves he hs.numbers)).trans (.of_same rfl rfl)

theorem State.OwnersLegal.forceComplete (hs : s.OwnersLegal firing) (he : e ∈ s.runList) :
    (s.forceComplete e).OwnersLegal firing where
  runList := hs.runList.leaves (State.forceComplete_leaves hs.counted he) (State.forceComplete_births e).ge
  owners q c o ho := by
    have stood : (s.channel q c).own = some o ∧ (q = e.playback → o.owner ≠ e.number) := by
      unfold State.channel at ho ⊢
      rw [State.forceComplete_channels, Table.get_modify] at ho
      split at ho
      · next hq =>
        subst hq
        rw [Table.get_map] at ho
        unfold forceRecord at ho
        split at ho
        · split at ho
          · cases ho
          · next h hn =>
            rw [h] at ho
            cases ho
            exact ⟨h, fun _ => hn⟩
        · next h => rw [h] at ho; cases ho
      · next h => exact ⟨ho, fun hq => absurd hq.symm h⟩
    obtain ⟨x, hx, hn, hp⟩ := hs.owners q c o stood.1
    refine ⟨x, ?_, hn, hp⟩
    rw [State.forceComplete_runList]
    refine List.mem_filter.2 ⟨hx, decide_eq_true fun hne => stood.2 ?_ (hn.symm.trans hne)⟩
    rw [← hp, List.inj_on_of_nodup_map hs.runList.numbers hx he hne]
  counts x hx := by
    rw [State.forceComplete_runList] at hx
    obtain ⟨hx, hn⟩ := List.mem_filter.1 hx
    exact (hs.counts x hx).trans (State.ownedOn_forceComplete (by simpa using hn) _).symm
  busy x hx := by
    rw [State.forceComplete_runList] at hx
    exact hs.busy x (List.mem_of_mem_filter hx)
  firing_lt := by
    rw [State.forceComplete_births]
    exact hs.firing_lt

theorem State.makeRoom_cases (s : State) : s.makeRoom = s ∨ ∃ e ∈ s.runList, s.makeRoom = s.forceComplete e := by
  unfold State.makeRoom
  split
  · split
    · next e _ h => exact .inr ⟨e, h ▸ List.mem_cons_self, rfl⟩
    · exact .inl rfl
  · exact .inl rfl

theorem State.OwnersLegal.makeRoom (hs : s.OwnersLegal firing) : Roomy firing s s.makeRoom := by
  have room := State.makeRoom_has_room hs.runList.length_le
  obtain h | ⟨e, he, h⟩ := s.makeRoom_cases <;> rw [h] at room ⊢
  · exact ⟨hs, room, .refl s, rfl, rfl⟩
  · exact ⟨hs.forceComplete he, room, State.forceComplete_leaves hs.counted he, State.forceComplete_births e,
      h ▸ State.playbacks_makeRoom s⟩

/-! ### Starts (R27, R28) -/

section
variable {kind : EntryKind} {who : StartedBy} {takes : List Take} {v : State}

/-- A started entry may still have nothing: its test for removal is to come. -/
theorem Started.ownersLegal (h : Started firing kind p who takes s v) (hs : s.OwnersLegal firing)
    (room : s.runList.length < 16) : v.OwnersLegal (s.births :: firing) where
  runList := (State.createEntry_runListLegal hs.runList room kind p who).leaves h.leaves (by rw [h.same])
  owners := h.counted.owners
  counts := h.counted.counts
  busy e he := by
    rw [h.runList] at he
    obtain ⟨x, hx, rfl, hk⟩ := State.mem_kept.1 he
    rw [Bool.or_eq_true, Bool.and_eq_true] at hk
    rcases hk with ⟨hn, -⟩ | hk
    · rcases List.mem_append.1 hx with hx | hx
      · exact absurd (of_decide_eq_true hn) ((State.lowestFree_spec room).1 x hx)
      · rw [List.mem_singleton.1 hx]
        exact .inr (.inr List.mem_cons_self)
    · exact (RunEntry.stays_iff.1 hk).imp_right (Or.imp_right (List.mem_cons_of_mem _))
  firing_lt b hb := by
    have births : v.births = s.births + 1 := by
      rw [h.same]
      rfl
    rw [births]
    rcases List.mem_cons.1 hb with rfl | hb
    · exact Nat.lt_succ_self _
    · exact (hs.firing_lt b hb).trans (Nat.lt_succ_self _)

/-- A start in any legal state is a start in the state with room made. -/
theorem State.OwnersLegal.started (hs : s.OwnersLegal firing) (once : (takes.map (·.channel)).Nodup) :
    Started firing kind p who takes s.makeRoom (s.start firing kind p who takes) := by
  rw [State.start_makeRoom hs.runList.length_le]
  exact State.start_started hs.makeRoom.owners hs.makeRoom.room once

theorem State.OwnersLegal.start (hs : s.OwnersLegal firing) (once : (takes.map (·.channel)).Nodup) :
    (s.start firing kind p who takes).OwnersLegal (s.births :: firing) := by
  rw [← hs.makeRoom.births]
  exact (hs.started once).ownersLegal hs.makeRoom.owners hs.makeRoom.room

/-- A tag of a birth yet to come is in no legal list. -/
theorem State.RunListLegal.fresh (hs : s.RunListLegal) {x : Tag} (hx : x.birth = s.births) : x ∉ s.tags := fun hm => by
  obtain ⟨e, he, rfl⟩ := List.mem_map.1 hm
  exact absurd (hs.births_lt e he) (Nat.not_lt.2 hx.ge)

/-- What leaves in a start, the room made for it included: seen from the state in which the new entry has just joined. -/
theorem State.OwnersLegal.start_leaves (hs : s.OwnersLegal firing) (once : (takes.map (·.channel)).Nodup) :
    Leaves { s with runList := s.runList ++ [s.makeRoom.newEntry kind p who] } (s.start firing kind p who takes) := by
  have room := hs.makeRoom
  have fresh : (s.makeRoom.newEntry kind p who).tag ∉ s.tags := hs.runList.fresh room.births
  have joined := room.leaves.append (s' := { s with runList := s.runList ++ [s.makeRoom.newEntry kind p who] })
    (t' := s.makeRoom.createEntry kind p who) fresh (by simp [State.tags])
    (by simp [State.tags, State.createEntry_runList]) rfl rfl
  exact joined.trans (hs.started once).leaves

end

end Sys2Proof.Machine
end

section
namespace Sys2Proof.Machine

variable {r : RigRecord} {s t u : State} {firing : List Nat} {n : Fin 16} {p : Fin 4} {e : RunEntry} {b : Nat}

/-! ### The legal engine while follows fire (R25 to R30, R36) -/

/-- The legal engine in the middle of a chain: the entries whose follows are firing may stand without a channel or a follow. -/
structure State.Sound (s : State) (firing : List Nat) : Prop where
  cues : s.CuesLegal
  owners : s.OwnersLegal firing
  pairs_once : ∀ p, ∀ x ∈ (s.playback p).stack, (x.pairs.map (·.channel)).Nodup
  agree : Agree s.tags s.slot

theorem State.mem_tags_slot {i : Fin 32} : (∃ x ∈ s.tags, x.slot? = some i) ↔ ∃ e ∈ s.runList, ∃ cue f, e.kind = .cue i cue f := by
  simp only [State.tags, List.mem_map, exists_exists_and_eq_and]
  exact exists_congr fun e => and_congr_right' EntryKind.slot?_eq_some

theorem State.engineLegal_iff_sound : s.EngineLegal ↔ s.Sound [] := by
  constructor
  · refine fun h => ⟨h.cues, ⟨h.runList, h.owners, h.counts, fun e he => (h.busy e he).imp_right .inl, by simp⟩, h.pairs_once,
      fun i => (h.running i).trans State.mem_tags_slot.symm, fun i x hx y hy hi hj => ?_⟩
    obtain ⟨e, he, rfl⟩ := List.mem_map.1 hx
    obtain ⟨e', he', rfl⟩ := List.mem_map.1 hy
    rw [h.one_entry i e he e' he' (EntryKind.slot?_eq_some.1 hi) (EntryKind.slot?_eq_some.1 hj)]
  · refine fun h => ⟨h.cues, h.owners.runList, h.pairs_once, h.owners.owners, h.owners.counts,
      fun e he => by simpa using h.owners.busy e he, fun i => (h.agree.running i).trans State.mem_tags_slot,
      fun i e he e' he' hi hj => ?_⟩
    have same := h.agree.one_entry i _ (List.mem_map_of_mem he) _ (List.mem_map_of_mem he') (EntryKind.slot?_eq_some.2 hi)
      (EntryKind.slot?_eq_some.2 hj)
    exact List.inj_on_of_nodup_map h.owners.runList.numbers he he' (congrArg Tag.number same)

namespace State.Sound
variable (h : s.Sound firing)
include h

/-- An operation of the engine keeps it legal as far as it keeps owners and counts and only lets entries leave. -/
theorem of_leaves {firing' : List Nat} (owners : t.OwnersLegal firing') (leaves : Leaves s t) (contents : SameContents s t)
    (beside : SameBeside s t) (playbacks : t.playbacks = s.playbacks) : t.Sound firing' where
  cues := h.cues.of_same contents beside.fill
  owners := owners
  pairs_once q := by
    unfold State.playback
    rw [playbacks]
    exact h.pairs_once q
  agree := h.agree.leaves leaves

theorem cons (hb : b < s.births) : s.Sound (b :: firing) := { h with owners := h.owners.cons hb }

theorem modPlayback (p : Fin 4) {f : Playback → Playback}
    (stack : ∀ x ∈ (f (s.playback p)).stack, (x.pairs.map (·.channel)).Nodup) : (s.modPlayback p f).Sound firing where
  cues := h.cues.modPlayback p f
  owners := h.owners.of_same rfl rfl rfl
  agree := h.agree
  pairs_once q := by
    rw [State.playback_modPlayback]
    split
    · exact stack
    · exact h.pairs_once q

theorem notifyDesks (n : Notice) : (s.notifyDesks n).Sound firing :=
  h.of_leaves (h.owners.of_same rfl rfl rfl) (.of_same rfl rfl) (.of_slots rfl) (s.notifyDesks_beside n) rfl

theorem modEntry {f : RunEntry → RunEntry} (tag : ∀ x, (f x).tag = x.tag) (owned : ∀ x, (f x).owned = x.owned)
    (follow : ∀ x ∈ s.runList, x.number = n → (f x).follow = x.follow ∨ x.birth ∈ firing) : (s.modEntry n f).Sound firing :=
  h.of_leaves (h.owners.modEntry tag owned follow) (.of_same (State.tags_modEntry n tag) rfl) (State.modEntry_contents n f)
    (s.modEntry_beside n f) rfl

theorem evaluate (he : e ∈ s.runList) : (s.evaluate firing e.number).Sound firing :=
  h.of_leaves (h.owners.evaluate he) (State.evaluate_leaves h.owners.counted he) (State.evaluate_contents firing e.number)
    (s.evaluate_beside firing e.number) (s.playbacks_evaluate firing e.number)

/-- A start whose entry runs no slot. -/
theorem start {kind : EntryKind} {who : StartedBy} {takes : List Take} (plain : kind.slot? = none)
    (once : (takes.map (·.channel)).Nodup) : (s.start firing kind p who takes).Sound (s.births :: firing) where
  cues := h.cues.of_same (State.start_contents firing kind p who takes) (s.start_beside firing kind p who takes).fill
  owners := h.owners.start once
  pairs_once q := by
    unfold State.playback
    rw [s.playbacks_start]
    exact h.pairs_once q
  agree := by
    refine Agree.leaves (s := { s with runList := s.runList ++ [s.makeRoom.newEntry kind p who] }) ?_ (h.owners.start_leaves once)
    have joined := h.agree.append_plain (x := (s.makeRoom.newEntry kind p who).tag) plain
    show Agree ((s.runList ++ _).map RunEntry.tag) s.slot
    rw [List.map_append]
    exact joined

end State.Sound

theorem State.Sound.testLeaveBorn (h : s.Sound (b :: firing)) : (s.testLeaveBorn firing b).Sound firing :=
  h.of_leaves h.owners.testLeaveBorn (h.owners.runList.testLeaveBorn_leaves firing b) (State.testLeaveBorn_contents firing b)
    (s.testLeaveBorn_beside firing b) (State.testLeaveBorn_playbacks firing b)

theorem State.Sound.plainStart (h : s.Sound []) {kind : EntryKind} {who : StartedBy} {takes : List Take}
    (plain : kind.slot? = none) (once : (takes.map (·.channel)).Nodup) : (s.plainStart kind p who takes).Sound [] :=
  (h.start plain once).testLeaveBorn

/-! ### The start of a cue -/

theorem State.push_cases (s : State) (p : Fin 4) (ms : List Move) :
    s.push p ms = (s.modPlayback p fun x =>
      { x with stack := ⟨x.currentCue, s.capture p ms⟩ :: s.roomyStack p (s.capture p ms).length }) ∨
    s.push p ms = (s.modPlayback p fun x => { x with stack := s.roomyStack p (s.capture p ms).length }).notifyDesks .backLost := by
  unfold State.push
  dsimp only
  split
  · exact .inl rfl
  · exact .inr rfl

theorem State.Sound.push (h : s.Sound firing) (p : Fin 4) {ms : List Move} (once : (ms.map (·.channel)).Nodup) :
    (s.push p ms).Sound firing := by
  have kept : ∀ x ∈ s.roomyStack p (s.capture p ms).length, (x.pairs.map (·.channel)).Nodup :=
    fun x hx => h.pairs_once p x ((s.roomyStack_sublist p _).subset hx)
  obtain e | e := s.push_cases p ms <;> rw [e]
  · refine h.modPlayback p fun x hx => ?_
    rcases List.mem_cons.1 hx with rfl | hx
    · simpa [State.capture, Function.comp_def] using once
    · exact kept x hx
  · exact (h.modPlayback p kept).notifyDesks .backLost

theorem cueTakes_channels (h : CueHeader) (ms : List Move) : (cueTakes h ms).map (·.channel) = ms.map (·.channel) := by
  simp [cueTakes, Function.comp_def]

/-- The content of a READY slot names no channel twice, and names one. -/
theorem State.CuesLegal.ready (hs : s.CuesLegal) {i : Fin 32} {h : CueHeader} {ms : List Move} (hx : s.slot i = .ready h ms) :
    (ms.map (·.channel)).Nodup ∧ ms ≠ [] := by
  have legal := hs.slots i
  rw [hx] at legal
  obtain ⟨⟨header, -, -, once⟩, full⟩ := legal
  refine ⟨once, ?_⟩
  rintro rfl
  obtain ⟨-, -, declared, -⟩ := header
  exact absurd declared (by simp [← full])

section
variable {i : Fin 32} {h : CueHeader} {ms : List Move} {who : StartedBy}

theorem State.push_runList (p : Fin 4) (ms : List Move) : (s.push p ms).runList = s.runList := by
  obtain e | e := s.push_cases p ms <;> rw [e] <;> rfl

theorem State.push_channels (p : Fin 4) (ms : List Move) : (s.push p ms).channels = s.channels := by
  obtain e | e := s.push_cases p ms <;> rw [e] <;> rfl

theorem State.push_births (p : Fin 4) (ms : List Move) : (s.push p ms).births = s.births := by
  obtain e | e := s.push_cases p ms <;> rw [e] <;> rfl

@[simp] theorem State.beforeStart_runList : (s.beforeStart p i h ms who).runList = s.runList := State.push_runList p ms
@[simp] theorem State.beforeStart_channels : (s.beforeStart p i h ms who).channels = s.channels := State.push_channels p ms
@[simp] theorem State.beforeStart_births : (s.beforeStart p i h ms who).births = s.births := State.push_births p ms

theorem State.slot_beforeStart (j : Fin 32) :
    (s.beforeStart p i h ms who).slot j = if i = j then .running h ms else s.slot j := by
  show ((s.push p ms).setSlot i (.running h ms)).slot j = _
  rw [State.slot_setSlot]
  unfold State.slot
  rw [State.push_slots]

theorem State.playback_beforeStart (q : Fin 4) : (s.beforeStart p i h ms who).playback q =
    if p = q then
      { (s.push p ms).playback p with
        held := false, currentCue := h.cue, echo := some ⟨.cue, h.cue, who⟩, echoTimer := some 2000 }
    else (s.push p ms).playback q :=
  State.playback_setPlayback _ _ _ _

theorem State.beforeStart_ownersLegal (hs : s.OwnersLegal firing) : (s.beforeStart p i h ms who).OwnersLegal firing :=
  hs.of_same State.beforeStart_channels State.beforeStart_runList State.beforeStart_births

theorem State.Sound.cueStart (hs : s.Sound firing) (hx : s.slot i = .ready h ms) (p : Fin 4) (who : StartedBy) :
    (s.cueStart firing p i h ms who).Sound (s.births :: firing) := by
  obtain ⟨once, -⟩ := hs.cues.ready hx
  have once' : ((cueTakes h ms).map (·.channel)).Nodup := (cueTakes_channels h ms).symm ▸ once
  have before := State.beforeStart_ownersLegal (p := p) (i := i) (h := h) (ms := ms) (who := who) hs.owners
  refine ⟨?_, ?_, fun q x hq => ?_, ?_⟩
  · rw [← s.beginCue_eq firing p i h ms who hx]
    exact hs.cues.of_same (State.beginCue_contents firing p i h ms who) (s.beginCue_beside firing p i h ms who).fill
  · have owners := before.start (p := p) (kind := .cue i h.cue (entryFollow h)) (who := who) once'
    rw [State.beforeStart_births] at owners
    exact owners
  · have stack : ((s.cueStart firing p i h ms who).playback q).stack = ((s.push p ms).playback q).stack := by
      unfold State.cueStart State.playback
      rw [State.playbacks_start]
      show ((s.beforeStart p i h ms who).playback q).stack = _
      rw [State.playback_beforeStart]
      split
      · next hq => subst hq; rfl
      · rfl
    rw [stack] at hq
    exact (hs.push p once).pairs_once q x hq
  · refine Agree.leaves ?_ (before.start_leaves once')
    show Agree ((State.runList (s.beforeStart p i h ms who) ++ _).map RunEntry.tag) (s.beforeStart p i h ms who).slot
    rw [List.map_append, State.beforeStart_runList]
    refine hs.agree.append_cue (i := i) rfl ?_ ⟨h, ms, ?_⟩ fun j hj => ?_
    · rw [hx]
      exact fun _ _ => nofun
    · rw [State.slot_beforeStart, if_pos rfl]
    · rw [State.slot_beforeStart, if_neg (Ne.symm hj)]

end

/-! ### The chain of follows and the clocks (R32, R36, R37) -/

theorem RunEntry.owned_clearFollow (x : RunEntry) : x.clearFollow.owned = x.owned := by
  unfold RunEntry.clearFollow
  split <;> rfl

/-- An entry whose follow fires has it cleared. -/
theorem State.Sound.clearFollow (h : s.Sound (b :: firing)) (he : s.born? b = some e) :
    (s.modEntry e.number RunEntry.clearFollow).Sound (b :: firing) := by
  obtain ⟨listed, rfl⟩ := s.born?_eq_some he
  refine h.modEntry RunEntry.tag_clearFollow RunEntry.owned_clearFollow fun x hx hn => .inr ?_
  rw [List.inj_on_of_nodup_map h.owners.runList.numbers hx listed hn]
  exact List.mem_cons_self

theorem State.Sound.testFollow (fuel : Nat) (chain : List (Fin 32)) (h : s.Sound (b :: firing)) :
    (State.testFollow fuel chain firing b s).Sound firing := by
  induction fuel using Nat.strong_induction_on generalizing s chain firing b with
  | _ fuel ih =>
    obtain ⟨hb, e⟩ | ⟨e, -, -, e'⟩ | ⟨e, f, hb, -, -, -, e'⟩ | ⟨e, f, c, ms, hb, -, -, hx, -, h0, e'⟩ :=
      s.testFollow_cases fuel chain firing b
    · rw [e, ← State.testLeaveBorn_unborn (firing := firing) hb]
      exact h.testLeaveBorn
    · rw [e']
      exact h.testLeaveBorn
    · rw [e']
      exact ((h.clearFollow hb).notifyDesks .followLapsed).testLeaveBorn
    · rw [e']
      exact (ih _ (Nat.pred_lt h0) _ ((h.clearFollow hb).cueStart hx e.playback .follow)).testLeaveBorn

theorem State.Sound.takeGo (hs : s.Sound []) (d : Desk) (p : Fin 4) {i : Fin 32} {h : CueHeader} {ms : List Move}
    (hx : s.slot i = .ready h ms) : (s.takeGo d p i h ms).Sound [] := by
  unfold State.takeGo
  rw [s.beginCue_eq [] p i h ms (.desk d) hx]
  exact (hs.cueStart hx p (.desk d)).testFollow _ _

theorem State.Sound.visit (hs : s.Sound []) (b : Nat) : (s.visit b).Sound [] := by
  unfold State.visit
  split
  · exact hs
  · next e he =>
    obtain ⟨inList, rfl⟩ := s.born?_eq_some he
    split
    · dsimp only
      have advanced := hs.modEntry (n := e.number) (f := fun x => { x with clock := x.clock + (s.playback e.playback).rate })
        (fun _ => rfl) (fun _ => rfl) fun _ _ _ => .inl rfl
      have listed := List.mem_map_of_mem (f := fun x : RunEntry => if x.number = e.number then
        { x with clock := x.clock + (s.playback e.playback).rate } else x) inList
      rw [if_pos rfl] at listed
      have evaluated := advanced.evaluate listed
      refine (evaluated.cons ?_).testFollow _ _
      rw [State.evaluate_same advanced.owners.counted listed]
      exact hs.owners.runList.births_lt e inList
    · exact hs

theorem State.Sound.tick (hs : s.Sound []) : s.tick.Sound [] := by
  unfold State.tick
  generalize s.runList.map (·.birth) = bs
  induction bs generalizing s with
  | nil => exact hs
  | cons b bs ih => exact ih (hs.visit b)

theorem State.Sound.followDue (hs : s.Sound []) (n : Fin 16) : (s.followDue n).Sound [] := by
  unfold State.followDue
  split
  · exact hs
  · next e he =>
    split
    · exact (hs.cons (hs.owners.runList.births_lt e (s.entry?_eq_some he).1)).testFollow _ _
    · exact hs

/-! ### One step -/

/-- What the engine finds in the cue store when only fills have changed. -/
theorem State.Sound.of_fills (hs : s.Sound firing) (cues : t.CuesLegal) (h : t = { s with ports := t.ports, slots := t.slots })
    (running : ∀ i, (∃ c ms, t.slot i = .running c ms) ↔ ∃ c ms, s.slot i = .running c ms) : t.Sound firing := by
  have tags : t.tags = s.tags := by rw [h]; rfl
  refine ⟨cues, hs.owners.of_same (by rw [h]) (by rw [h]) (by rw [h]), fun q => ?_, fun i => ?_, fun i => ?_⟩
  · unfold State.playback
    rw [h]
    exact hs.pairs_once q
  · rw [running i, tags]
    exact hs.agree.running i
  · rw [tags]
    exact hs.agree.one_entry i

theorem State.Sound.of_calm (hs : s.Sound firing) (h : Calm r s t) : t.Sound firing where
  cues := hs.cues.of_same (.of_slots h.slots) h.fills
  owners := hs.owners.of_same h.channels h.runList h.births
  pairs_once q x hx := hs.pairs_once q x (h.stack_mem q x hx)
  agree := hs.agree.leaves (.of_same (by unfold State.tags; rw [h.runList]) h.slots)

theorem State.Sound.of_blank (h : Blank s) : s.Sound [] where
  cues := .of_blank h
  owners := by
    refine ⟨⟨by simp [h.runList], by simp [h.runList], by simp [h.runList], by simp [h.runList]⟩, fun q c o ho => ?_,
      by simp [h.runList], by simp [h.runList], by simp⟩
    unfold State.channel at ho
    rw [h.channels, Table.get_fill, Table.get_fill] at ho
    cases ho
  pairs_once q := by
    unfold State.playback
    rw [h.playbacks, Table.get_fill]
    exact fun _ h => nomatch h
  agree := by
    have tags : s.tags = [] := by unfold State.tags; rw [h.runList]; rfl
    rw [tags]
    refine ⟨fun i => ⟨?_, by simp⟩, by simp⟩
    rintro ⟨c, ms, hr⟩
    unfold State.slot at hr
    rw [h.slots, Table.get_fill] at hr
    cases hr

/-- A slot that does not run is given content that does not run. -/
theorem State.Sound.write (hs : s.Sound firing) (cues : t.CuesLegal) (h : t = { s with ports := t.ports, slots := t.slots })
    {i : Fin 32} {x : Slot} (slots : t.slots = s.slots.set i x) (before : ∀ c ms, s.slot i ≠ .running c ms)
    (after : ∀ c ms, x ≠ .running c ms) : t.Sound firing := by
  refine hs.of_fills cues h fun j => ?_
  unfold State.slot at before ⊢
  rw [slots, Table.get_set]
  split
  · next e =>
    subst e
    simp [before, after]
  · exact .rfl

theorem State.releasable_nodup (p : Fin 4) : (s.releasable p).Nodup := by
  unfold State.releasable
  rw [show (List.ofFn fun c : Fin 512 => c) = List.finRange 512 from List.ofFn_id 512]
  exact (List.nodup_finRange 512).filter _

theorem flatTake_channels {α : Type} (tenths : Nat) (c : α → Fin 512) (v : α → Nat) (l : List α) :
    (l.map fun x => flatTake tenths (c x) (v x)).map (·.channel) = l.map c := by
  rw [List.map_map]
  rfl

theorem sound_kept (r : RigRecord) : KeptBySteps r fun s => s.Sound [] where
  calm h hs := hs.of_calm h
  blank := .of_blank
  endFill d hs := by
    have cues := hs.cues.endFill d
    obtain ⟨i, hf, h⟩ | ⟨-, h⟩ := State.endFill_cases _ d <;> rw [h] at cues ⊢
    · obtain ⟨c, ms, hx⟩ := (hs.cues.fills i d).2 hf
      exact hs.write cues rfl (i := i) (x := .empty) rfl (by simp [hx]) nofun
    · exact hs.of_fills cues rfl fun _ => .rfl
  startFill d i h hs free idle legal room :=
    hs.write (hs.cues.startFill free legal room) rfl (i := i) (x := .filling h [] d) rfl idle nofun
  absorb d i cue hs free hc := hs.of_fills ((cuesLegal_kept r).absorb d i cue hs.cues free hc) rfl fun _ => .rfl
  endAbsorb d i cue hs hf := hs.of_fills ((cuesLegal_kept r).endAbsorb d i cue hs.cues hf) rfl fun _ => .rfl
  addMoves d i h held ms hs hx legal once room :=
    hs.write (hs.cues.addMoves hx legal once room) rfl (i := i) (x := .filling h (held ++ ms) d) rfl (by simp [hx]) nofun
  close d i h held hs hx full :=
    hs.write (hs.cues.close hx full) rfl (i := i) (x := .ready h held) rfl (by simp [hx]) nofun
  emptySlot i hs idle := hs.write (hs.cues.emptySlot i) rfl (i := i) (x := .empty) rfl idle nofun
  takeGo d p i h ms hs hx := hs.takeGo d p hx
  takeBack d p top rest hs hx := by
    have pairs (x : RestoreEntry) (h : x ∈ top :: rest) := hs.pairs_once p x (hx ▸ h)
    refine (hs.modPlayback p fun x h => pairs x (List.mem_cons_of_mem _ h)).plainStart rfl ?_
    rw [flatTake_channels]
    exact pairs top List.mem_cons_self
  takeManual d p takes hs once _ := hs.plainStart rfl once
  takeRelease d p hs := by
    have cleared := hs.modPlayback p (f := fun x => { x with stack := [], currentCue := 0 }) fun _ h => nomatch h
    obtain h | h := State.takeRelease_cases d p <;> rw [h]
    · exact cleared
    · refine cleared.plainStart rfl ?_
      rw [flatTake_channels, List.map_id']
      exact State.releasable_nodup p
  tick hs := hs.tick
  followDue n hs := hs.followDue n

/-- Settles O37: no operation that a step can make leaves the legal engine (`sound_kept`). -/
theorem everyStepKeepsTheEngineLegal : Obligations.EveryStepKeepsTheEngineLegal := fun s _ hs h =>
  State.engineLegal_iff_sound.2 ((sound_kept s.rig).step rfl (State.engineLegal_iff_sound.1 hs) h)

end Sys2Proof.Machine
end

section
namespace Sys2Proof.Machine

variable {s t u v w : State} {firing : List Nat} {n : Fin 16} {p : Fin 4} {e : RunEntry} {b : Nat} {i : Fin 32} {h : CueHeader}
  {ms : List Move} {who : StartedBy}

/-! ### The start of a GO or follow, in the state with room made (R35, R36) -/

/-- The start `u` of the READY content of slot `i`, made in a state `w` with room in which the slot runs already. -/
structure CueRun (firing : List Nat) (p : Fin 4) (i : Fin 32) (h : CueHeader) (ms : List Move) (who : StartedBy) (w u : State) :
    Prop where
  owners : w.OwnersLegal firing
  room : w.runList.length < 16
  ran : w.slot i = .running h ms
  unnamed : ∀ x ∈ w.tags, x.slot? ≠ some i
  started : Started firing (.cue i h.cue (entryFollow h)) p who (cueTakes h ms) w u
  some_take : cueTakes h ms ≠ []

theorem Leaves.stood_of_unnamed (k : Leaves s t) (unnamed : ∀ x ∈ s.tags, x.slot? ≠ some i) : t.slot i = s.slot i :=
  k.stood i fun ⟨x, hx, hi, _⟩ => unnamed x hx hi

theorem State.Sound.cueRun (hs : s.Sound firing) (hx : s.slot i = .ready h ms) (p : Fin 4) (who : StartedBy) :
    CueRun firing p i h ms who (s.beforeStart p i h ms who).makeRoom (s.cueStart firing p i h ms who) := by
  obtain ⟨once, some_move⟩ := hs.cues.ready hx
  have before := State.beforeStart_ownersLegal (p := p) (i := i) (h := h) (ms := ms) (who := who) hs.owners
  have room := before.makeRoom
  have unnamed : ∀ x ∈ (s.beforeStart p i h ms who).tags, x.slot? ≠ some i := by
    intro x hm hi
    rw [State.tags, State.beforeStart_runList] at hm
    obtain ⟨c, ms', hr⟩ := (hs.agree.running i).2 ⟨x, hm, hi⟩
    rw [hx] at hr
    cases hr
  refine ⟨room.owners, room.room, ?_, fun x hm => unnamed x (room.leaves.sub.subset hm),
    before.started (by rw [cueTakes_channels]; exact once), by simpa [cueTakes] using some_move⟩
  rw [room.leaves.stood_of_unnamed unnamed, State.slot_beforeStart, if_pos rfl]

theorem State.createEntry_cue_tags :
    (w.createEntry (.cue i h.cue (entryFollow h)) p who).tags = w.tags ++ [(cueEntry w p i h who).tag] := by
  rw [State.tags, State.createEntry_runList, List.map_append]
  rfl

namespace CueRun
variable (c : CueRun firing p i h ms who w u)
include c

theorem runList_eq : u.runList = u.standing firing (w.runList ++ [cueEntry w p i h who]) := by
  have empty : (cueTakes h ms).isEmpty = false := List.isEmpty_eq_false_iff.2 c.some_take
  rw [c.started.runList, State.standing_eq]
  exact State.kept_congr fun x _ => by simp [empty]

theorem births : u.births = w.births + 1 := by
  rw [c.started.same]
  rfl

theorem created : (w.createEntry (.cue i h.cue (entryFollow h)) p who).RunListLegal :=
  State.createEntry_runListLegal c.owners.runList c.room _ p who

/-- An entry of the birth of the start is its new entry, recounted. -/
theorem eq_of_birth {x : RunEntry} (hx : x ∈ u.runList) (hb : x.birth = w.births) : x = (cueEntry w p i h who).recounted u := by
  rw [c.runList_eq, State.standing_eq] at hx
  obtain ⟨y, hy, rfl, -⟩ := State.mem_kept.1 hx
  rcases List.mem_append.1 hy with hy | hy
  · exact absurd hb (Nat.ne_of_lt (c.owners.runList.births_lt y hy))
  · rw [List.mem_singleton.1 hy]

/-- With no follow due at clock 0 the chain ends with the start. -/
theorem testFollow_eq (later : ∀ f, h.follow = some f → 0 < f.tenths) (fuel : Nat) (chain : List (Fin 32)) :
    State.testFollow fuel chain firing w.births u = u := by
  have pending {x : RunEntry} (hx : x ∈ u.runList) (hb : x.birth = w.births) {f : EntryFollow} (hf : x.follow = some f)
      (due : f.due ≤ x.clock) : False := by
    rw [c.eq_of_birth hx hb] at hf due
    obtain ⟨g, hg, rfl⟩ := Option.map_eq_some_iff.1 (show h.follow.map _ = some f from hf)
    have := later g hg
    have : g.tenths * 1000 ≤ 0 := due
    omega
  obtain ⟨-, e⟩ | ⟨x, hx, -, e⟩ | ⟨x, f, hx, hf, due, -, -⟩ | ⟨x, f, _, _, hx, hf, due, -⟩ :=
    u.testFollow_cases fuel chain firing w.births
  · exact e
  · rw [e]
    obtain h' | ⟨y, hy, done, -⟩ := u.testLeaveBorn_cases firing w.births
    · exact h'
    · have listed := (u.born?_eq_some hy).1
      rw [c.runList_eq, State.standing_eq] at listed
      obtain ⟨_, _, _, stays⟩ := State.mem_kept.1 listed
      rw [RunEntry.done_eq, stays] at done
      cases done
  · exact (pending (u.born?_eq_some hx).1 (u.born?_eq_some hx).2 hf due).elim
  · exact (pending (u.born?_eq_some hx).1 (u.born?_eq_some hx).2 hf due).elim

/-- The slot runs as long as its new entry stands. -/
theorem slot_ran (leaves : Leaves u v) (runList : v.runList = v.standing [] (w.runList ++ [cueEntry w p i h who])) :
    v.slot i = if ((cueEntry w p i h who).recounted v).stays [] then .running h ms else .ready h ms := by
  have all := c.started.leaves.trans leaves
  split
  · next stays =>
    rw [all.stood i, ← c.ran]
    · rfl
    · rintro ⟨x, hx, hi, gone⟩
      rw [State.createEntry_cue_tags, List.mem_append, List.mem_singleton] at hx
      rcases hx with hx | rfl
      · exact c.unnamed x hx hi
      · refine gone (List.mem_map.2 ⟨(cueEntry w p i h who).recounted v, ?_, rfl⟩)
        rw [runList, State.standing_eq]
        exact State.mem_kept.2 ⟨_, List.mem_append_right _ List.mem_cons_self, rfl, stays⟩
  · next leaves =>
    rw [all.left i ⟨(cueEntry w p i h who).tag, by simp [State.createEntry_cue_tags], rfl, fun hm => leaves ?_⟩]
    · exact congrArg Slot.toReady c.ran
    · obtain ⟨x, hx, same⟩ := List.mem_map.1 hm
      rw [runList, State.standing_eq] at hx
      obtain ⟨y, hy, rfl, stays⟩ := State.mem_kept.1 hx
      rcases List.mem_append.1 hy with hy | hy
      · exact absurd (congrArg Tag.birth same) (Nat.ne_of_lt (c.owners.runList.births_lt y hy))
      · rwa [← List.mem_singleton.1 hy]

/-- Of the other slots the new entry names none. -/
theorem slotFollows (leaves : Leaves u v) {j : Fin 32} (hj : j ≠ i) : SlotFollows w w.runList v j := by
  obtain ⟨left, stood⟩ := (c.started.leaves.trans leaves).slotFollows c.created.births_nodup j
  have same : (∃ x ∈ (w.createEntry (.cue i h.cue (entryFollow h)) p who).runList, (∃ cue f, x.kind = .cue j cue f) ∧
      x.birth ∉ v.runList.map (·.birth)) ↔
      ∃ x ∈ w.runList, (∃ cue f, x.kind = .cue j cue f) ∧ x.birth ∉ v.runList.map (·.birth) := by
    rw [State.createEntry_runList]
    simp only [List.mem_append, List.mem_singleton, or_and_right, exists_or, exists_eq_left]
    refine or_iff_left ?_
    rintro ⟨⟨_, _, e⟩, -⟩
    cases e
    exact hj rfl
  exact ⟨fun hl => left (same.2 hl), fun hn => stood (mt same.1 hn)⟩

/-- The start as the manual states it, once the entries that only a firing follow kept have been tested. -/
theorem cueStarted (leaves : Leaves u v) (channels : v.channels = u.channels) (births : v.births = u.births)
    (runList : v.runList = v.standing [] (w.runList ++ [cueEntry w p i h who])) : CueStarted w p i h ms who v := by
  have channel (q : Fin 4) (d : Fin 512) : v.channel q d = u.channel q d := by
    unfold State.channel
    rw [channels]
  refine ⟨runList, fun k hk => ?_, fun d hd => ?_, fun q d hq => ?_, c.slot_ran leaves runList,
    fun j hj => c.slotFollows leaves hj, births.trans c.births⟩
  · rw [channel]
    exact c.started.taken k hk
  · rw [channel]
    exact c.started.others p d (.inr (by rwa [cueTakes_channels]))
  · rw [channel]
    exact c.started.others q d (.inl hq)

end CueRun

/-! ### The playbacks through the start of a cue (R34, R35, R66) -/

/-- The stack a push leaves (R66, R67). -/
def State.pushedStack (s : State) (p : Fin 4) (ms : List Move) : List RestoreEntry :=
  let pairs := s.capture p ms
  let others := s.heldPairs - stackPairs (s.playback p).stack
  let room := s.roomyStack p pairs.length
  if others + stackPairs room + pairs.length ≤ Config.restorePairs then ⟨(s.playback p).currentCue, pairs⟩ :: room else room

theorem State.playback_push (q : Fin 4) : (s.push p ms).playback q =
    if p = q then { s.playback p with stack := s.pushedStack p ms } else s.playback q := by
  unfold State.push State.pushedStack
  dsimp only
  split
  · exact s.playback_modPlayback p q _
  · show (State.notifyDesks _ _).playbacks.get q = _
    rw [State.notifyDesks_playbacks]
    exact s.playback_modPlayback p q _

theorem State.playback_cueStart (q : Fin 4) : (s.cueStart firing p i h ms who).playback q =
    if q = p then
      { s.playback p with
        held := false
        currentCue := h.cue
        echo := some ⟨.cue, h.cue, who⟩
        echoTimer := some 2000
        stack := ((s.push p ms).playback p).stack }
    else s.playback q := by
  have same : (s.cueStart firing p i h ms who).playback q = (s.beforeStart p i h ms who).playback q := by
    unfold State.cueStart State.playback
    rw [State.playbacks_start]
  rw [same, State.playback_beforeStart, State.playback_push, State.playback_push, if_pos rfl]
  split
  · next hq => rw [if_pos hq.symm]
  · next hq => rw [if_neg (Ne.symm hq)]

/-- Settles O26: the start is `State.Sound.cueRun`; with no follow due the chain ends there. -/
theorem takenGoSetsItsPlayback : Obligations.TakenGoSetsItsPlayback := by
  intro s d p i h ms hs hx
  have sound := State.engineLegal_iff_sound.1 hs
  have run := sound.cueRun hx p (.desk d)
  have births : (s.beforeStart p i h ms (.desk d)).makeRoom.births = s.births :=
    (State.beforeStart_ownersLegal sound.owners).makeRoom.births.trans State.beforeStart_births
  have go : s.takeGo d p i h ms = State.testFollow 32 [i] [] s.births (s.cueStart [] p i h ms (.desk d)) := by
    unfold State.takeGo
    rw [s.beginCue_eq [] p i h ms (.desk d) hx]
    rfl
  obtain ⟨outside, ports⟩ := s.takeGo_beside d p i h ms
  refine ⟨run.cueStarted (.refl _) rfl rfl run.runList_eq, ?_, fun q hq => ?_, ?_, go, fun later => ?_, ports, outside⟩
  · rw [State.playback_cueStart, if_pos rfl]
  · rw [State.playback_cueStart, if_neg hq]
  · rw [run.births, births]
  · rw [go, ← births]
    exact run.testFollow_eq later 32 [i]

end Sys2Proof.Machine
end

section
namespace Sys2Proof.Machine

variable {s t u v w : State} {firing : List Nat} {n : Fin 16} {p : Fin 4} {e : RunEntry} {b : Nat} {i : Fin 32} {h : CueHeader}
  {ms : List Move} {who : StartedBy}

/-! ### A due follow (R36, R37) -/

theorem RunEntry.pairCount_clearFollow (x : RunEntry) : x.clearFollow.kind.pairCount = x.kind.pairCount := by
  obtain ⟨_, _, kind, _, _, _, _⟩ := x
  cases kind <;> rfl

theorem RunEntry.follow_clearFollow (x : RunEntry) : x.clearFollow.follow = none := by
  obtain ⟨_, _, kind, _, _, _, _⟩ := x
  cases kind <;> rfl

theorem State.heldPairs_modEntry {f : RunEntry → RunEntry} (hf : ∀ x, (f x).kind.pairCount = x.kind.pairCount) :
    (s.modEntry n f).heldPairs = s.heldPairs := by
  unfold State.heldPairs
  rw [State.modEntry_playbacks, State.modEntry_runList, List.map_map]
  congr 2
  refine List.map_congr_left fun x _ => ?_
  rw [Function.comp_apply]
  split
  · exact hf x
  · rfl

/-- The push of a follow reads nothing of the run list but the pairs it holds. -/
theorem State.pushedStack_modEntry {f : RunEntry → RunEntry} (hf : ∀ x, (f x).kind.pairCount = x.kind.pairCount) :
    (s.modEntry n f).pushedStack p ms = s.pushedStack p ms := by
  unfold State.pushedStack State.roomyStack
  rw [State.heldPairs_modEntry hf]
  rfl

theorem State.makeRoom_runList_subset : s.makeRoom.runList ⊆ s.runList := by
  obtain e | ⟨e, -, h⟩ := s.makeRoom_cases
  · rw [e]
    exact List.Subset.refl _
  · rw [h, State.forceComplete_runList]
    exact List.filter_subset_self _

theorem State.followDue_eq {f : EntryFollow} (he : s.entry? n = some e) (runs : s.clockRuns e.playback = true)
    (hf : e.follow = some f) (due : f.due ≤ e.clock) : s.followDue n = State.testFollow 32 [] [] e.birth s := by
  unfold State.followDue
  rw [he]
  simp [runs, RunEntry.dueFollow, hf, due, Config.chainStarts]

theorem State.followDue_waits (he : s.entry? n = some e)
    (waits : s.clockRuns e.playback = false ∨ ∀ f, e.follow = some f → e.clock < f.due) : s.followDue n = s := by
  unfold State.followDue
  rw [he]
  have : (s.clockRuns e.playback && e.dueFollow.isSome) = false := by
    rcases waits with stopped | early
    · rw [stopped, Bool.false_and]
    · unfold RunEntry.dueFollow
      cases hf : e.follow with
      | none => simp
      | some f => simp [Nat.not_le.2 (early f hf)]
  simp [this]

/-- What the test of a follow that is due does, whatever the state: it lapses, or it fires. -/
theorem State.testFollow_lapses {fuel : Nat} {chain : List (Fin 32)} {f : EntryFollow} (he : s.born? b = some e)
    (hf : e.follow = some f) (due : f.due ≤ e.clock) (idle : (∀ h ms, s.slot f.slot ≠ .ready h ms) ∨ f.slot ∈ chain) :
    State.testFollow fuel chain firing b s = (s.modEntry e.number RunEntry.clearFollow).lapse firing b := by
  obtain ⟨h, -⟩ | ⟨x, h, early, -⟩ | ⟨x, g, h, -, -, -, h'⟩ | ⟨x, g, c, ms, h, hg, -, hx, new, -, -⟩ :=
    s.testFollow_cases fuel chain firing b
  all_goals rw [he] at h; cases h
  · exact absurd (early f hf) (Nat.not_lt.2 due)
  · exact h'
  · obtain rfl : f = g := Option.some.inj (hf.symm.trans hg)
    exact idle.elim (fun idle => absurd hx (idle c ms)) fun old => absurd old new

theorem State.testFollow_fires {fuel : Nat} {chain : List (Fin 32)} {f : EntryFollow} (he : s.born? b = some e)
    (hf : e.follow = some f) (due : f.due ≤ e.clock) (hx : s.slot f.slot = .ready h ms) (new : f.slot ∉ chain) (some_fuel : fuel ≠ 0) :
    State.testFollow fuel chain firing b s = (State.testFollow (fuel - 1) (f.slot :: chain) (b :: firing) s.births
      ((s.modEntry e.number RunEntry.clearFollow).cueStart (b :: firing) e.playback f.slot h ms .follow)).testLeaveBorn firing b := by
  obtain ⟨h, -⟩ | ⟨x, h, early, -⟩ | ⟨x, g, h, hg, -, idle, -⟩ | ⟨x, g, c, ms', h, hg, -, hx', -, -, e'⟩ :=
    s.testFollow_cases fuel chain firing b
  all_goals rw [he] at h; cases h
  · exact absurd (early f hf) (Nat.not_lt.2 due)
  · obtain rfl : f = g := Option.some.inj (hf.symm.trans hg)
    rcases idle with idle | old | none_left
    · exact absurd hx (idle h ms)
    · exact absurd old new
    · exact absurd none_left some_fuel
  · obtain rfl : f = g := Option.some.inj (hf.symm.trans hg)
    rw [hx] at hx'
    cases hx'
    exact e'

/-- A follow that lapses in a legal engine: its entry, named by its number, is tested for removal. -/
theorem State.RunListLegal.lapse_eq (hs : s.RunListLegal) (he : e ∈ s.runList) :
    (s.modEntry e.number RunEntry.clearFollow).lapse firing e.birth =
      ((s.modEntry e.number RunEntry.clearFollow).notifyDesks .followLapsed).testLeave firing e.number := by
  have legal : ((s.modEntry e.number RunEntry.clearFollow).notifyDesks .followLapsed).RunListLegal :=
    hs.of_tags (by rw [← State.tags_modEntry (s := s) e.number RunEntry.tag_clearFollow]; rfl) (Nat.le_refl _)
  have listed : e.clearFollow ∈ ((s.modEntry e.number RunEntry.clearFollow).notifyDesks .followLapsed).runList :=
    List.mem_map.2 ⟨e, he, if_pos rfl⟩
  have := legal.testLeaveBorn_eq listed firing
  rwa [show e.clearFollow.birth = e.birth from congrArg Tag.birth e.tag_clearFollow,
    show e.clearFollow.number = e.number from congrArg Tag.number e.tag_clearFollow] at this

/-- A due follow that fires in a legal engine, its start and what it leaves. -/
theorem State.Sound.followFires {t : Fin 32} (hs : s.Sound []) (he : e ∈ s.runList) (hx : s.slot t = .ready h ms) :
    let c := s.modEntry e.number RunEntry.clearFollow
    let u := c.cueStart [e.birth] e.playback t h ms .follow
    CueRun [e.birth] e.playback t h ms .follow (c.beforeStart e.playback t h ms .follow).makeRoom u ∧
      (c.beforeStart e.playback t h ms .follow).makeRoom.births = s.births ∧
      ∀ x ∈ u.runList, x.birth = e.birth → x.follow = none := by
  intro c u
  have older := hs.owners.runList.births_lt e he
  have sound : c.Sound [e.birth] := (hs.cons older).clearFollow (hs.owners.runList.born?_eq he)
  have run := sound.cueRun (i := t) hx e.playback .follow
  have before : (c.beforeStart e.playback t h ms .follow).OwnersLegal [e.birth] := State.beforeStart_ownersLegal sound.owners
  have births : (c.beforeStart e.playback t h ms .follow).makeRoom.births = s.births :=
    before.makeRoom.births.trans State.beforeStart_births
  refine ⟨run, births, fun x hxu hb => ?_⟩
  rw [show u.runList = _ from run.runList_eq, State.standing_eq] at hxu
  obtain ⟨y, hy, rfl, -⟩ := State.mem_kept.1 hxu
  rcases List.mem_append.1 hy with hy | hy
  · have cleared := State.makeRoom_runList_subset hy
    rw [State.beforeStart_runList] at cleared
    obtain ⟨z, hz, rfl⟩ := List.mem_map.1 cleared
    by_cases hn : z.number = e.number
    · rw [if_pos hn]
      exact RunEntry.follow_clearFollow z
    · rw [if_neg hn] at hb
      exact absurd (by rw [List.inj_on_of_nodup_map hs.owners.runList.births_nodup hz he hb]) hn
  · rw [List.mem_singleton.1 hy] at hb
    exact absurd (hb.symm.trans births) (Nat.ne_of_lt older)

/-- The entries that only the firing follow kept go with the test of its entry. -/
theorem CueRun.testLeaveBorn_cueStarted (c : CueRun [b] p i h ms who w u) (legal : u.RunListLegal) :
    CueStarted w p i h ms who (u.testLeaveBorn [] b) := by
  refine c.cueStarted (legal.testLeaveBorn_leaves [] b) (State.testLeaveBorn_channels [] b) (State.testLeaveBorn_births [] b) ?_
  have recount : RunEntry.recounted (u.testLeaveBorn [] b) = RunEntry.recounted u :=
    funext fun x => x.recounted_congr (State.testLeaveBorn_channels [] b)
  rw [legal.testLeaveBorn_runList, c.runList_eq]
  unfold State.standing
  rw [recount, List.filter_filter]
  refine List.filter_congr fun x _ => ?_
  by_cases hb : x.birth = b <;> simp [RunEntry.stays, hb]

/-- Settles O33, by the cases of a follow's test; the start of one that fires is `State.Sound.followFires`. -/
theorem followDueFiresOrLapses : Obligations.FollowDueFiresOrLapses := by
  have running {s : State} {n : Fin 16} (hp : s.power = .running) : exec (.followDue n) s = .next (s.followDue n) := by
    show Host.Outcome.next (whileRunning s (s.followDue n)) = _
    rw [whileRunning_running hp]
  refine ⟨fun s n hp hs => ?_, fun s fuel chain firing b => ⟨fun hb => ?_, fun e he early => ?_, fun e f he hf due => ?_⟩⟩
  · have sound := State.engineLegal_iff_sound.1 hs
    rw [running hp]
    refine ⟨fun he => ?_, fun e he waits => ?_, fun e f he runs hf due => ?_⟩
    · unfold State.followDue
      rw [he]
    · rw [State.followDue_waits he waits]
    · have follow := State.followDue_eq he runs hf due
      obtain ⟨inList, rfl⟩ := s.entry?_eq_some he
      have born := hs.runList.born?_eq inList
      refine ⟨by rw [follow], fun idle => ?_, fun h ms hx => ?_⟩
      · rw [follow, State.testFollow_lapses born hf due (.inl idle), hs.runList.lapse_eq inList]
      · obtain ⟨run, births, cleared⟩ := sound.followFires inList hx
        have fires := State.testFollow_fires (fuel := 32) (firing := []) (chain := []) born hf due hx (by simp) (by simp)
        obtain ⟨outside, ports⟩ := State.followDue_beside (s := s) e.number
        refine ⟨_, rfl, follow.trans fires, ?_, fun q hq => ?_, ?_, cleared, fun later => ?_, ports, outside⟩
        · rw [State.playback_cueStart, if_pos rfl, State.playback_push, State.playback_push, if_pos rfl, if_pos rfl,
            State.pushedStack_modEntry RunEntry.pairCount_clearFollow]
          rfl
        · rw [State.playback_cueStart, if_neg hq]
          rfl
        · rw [run.births, births]
        · have ends := run.testFollow_eq later 31 [f.slot]
          rw [births] at ends
          have done : s.followDue e.number = _ := follow.trans (fires.trans (congrArg (State.testLeaveBorn · [] e.birth) ends))
          rw [done]
          exact ⟨rfl, run.testLeaveBorn_cueStarted (run.created.leaves run.started.leaves run.births.ge)⟩
  · obtain ⟨-, h⟩ | ⟨e, h, -⟩ | ⟨e, f, h, -⟩ | ⟨e, f, _, _, h, -⟩ := s.testFollow_cases fuel chain firing b
    · exact h
    all_goals rw [hb] at h; cases h
  · obtain ⟨h, -⟩ | ⟨e', h, -, h'⟩ | ⟨e', f, h, hf, due, -⟩ | ⟨e', f, _, _, h, hf, due, -⟩ :=
      s.testFollow_cases fuel chain firing b
    all_goals rw [he] at h; cases h
    · exact h'
    all_goals exact absurd (early f hf) (Nat.not_lt.2 due)
  · exact ⟨State.testFollow_lapses he hf due, fun h ms hx new once enough =>
      State.testFollow_fires he hf due hx new (chain_has_room once new enough)⟩

end Sys2Proof.Machine
end

section
namespace Sys2Proof.Machine

/-! ### List bodies read as they are laid out (R184) -/

/-- Items of a fixed number of bytes each. -/
theorem length_flatMap_width {α : Type} {f : α → List Byte} {k : Nat} (hf : ∀ a, (f a).length = k) (l : List α) :
    (l.flatMap f).length = k * l.length := by
  simp [List.length_flatMap, hf, Nat.mul_comm]

theorem length_pairs (ps : List (Nat × Nat)) : (ps.flatMap fun x => bytes16 x.1 ++ bytes16 x.2).length = 4 * ps.length :=
  length_flatMap_width (f := fun x => bytes16 x.1 ++ bytes16 x.2) (k := 4) (fun _ => rfl) ps

theorem byteOf_toNat_small {n : Nat} (h : n < 256) : (byteOf n).toNat = n := by
  rw [byteOf_toNat, Nat.mod_eq_of_lt h]

theorem optionalTenths_bytes {o : Option Nat} (h : ∀ n, o = some n → n < 65535) :
    optionalTenths (byteOf (o.getD 65535 / 256)) (byteOf (o.getD 65535)) = o := by
  unfold optionalTenths
  cases o with
  | none => rw [Option.getD_none, be16_bytes16 (by decide), if_pos rfl]
  | some n =>
    have := h n rfl
    rw [Option.getD_some, be16_bytes16 (by omega), if_neg (by omega)]

/-- The bytes of one move of CUE_MOVES (R184). -/
def MoveFields.bytes (m : MoveFields) : List Byte :=
  bytes16 m.channel ++ bytes16 m.target ++ bytes16 (m.ownTime.getD 65535) ++ bytes16 (m.ownDelay.getD 65535)

theorem readMoves_flatMap (ms : List MoveFields)
    (h : ∀ m ∈ ms, m.channel < 65536 ∧ m.target < 65536 ∧ (∀ n, m.ownTime = some n → n < 65535) ∧
      (∀ n, m.ownDelay = some n → n < 65535)) : readMoves (ms.flatMap MoveFields.bytes) = ms := by
  induction ms with
  | nil => rfl
  | cons m rest ih =>
    obtain ⟨channel, target, ownTime, ownDelay⟩ := h m List.mem_cons_self
    show MoveFields.mk (be16 _ _) (be16 _ _) (optionalTenths _ _) (optionalTenths _ _) :: readMoves _ = _
    rw [be16_bytes16 channel, be16_bytes16 target, optionalTenths_bytes ownTime, optionalTenths_bytes ownDelay]
    exact congrArg _ (ih fun y hy => h y (List.mem_cons_of_mem _ hy))

theorem words_flatMap (l : List Nat) (h : ∀ v ∈ l, v < 65536) : words (l.flatMap bytes16) = l := by
  induction l with
  | nil => rfl
  | cons v rest ih =>
    show be16 _ _ :: words _ = _
    rw [be16_bytes16 (h v List.mem_cons_self)]
    exact congrArg _ (ih fun y hy => h y (List.mem_cons_of_mem _ hy))

/-! ### The checks of numbered items (R184) -/

theorem checkMoves_eq_some {batch : List MoveFields} {ms : List Move} : checkMoves batch = some ms ↔
    batch.map (fun m => (m.channel, m.target, m.ownTime.map (min · 9999), m.ownDelay.map (min · 9999))) =
      ms.map fun m => (m.channel.val + 1, m.target, m.ownTime, m.ownDelay) := by
  induction batch generalizing ms with
  | nil => cases ms <;> simp [checkMoves]
  | cons m rest ih =>
    cases ms with
    | nil =>
      rw [checkMoves]
      split <;> simp
    | cons y ys =>
      rw [List.map_cons, List.map_cons, List.cons_eq_cons, ← ih, checkMoves]
      obtain ⟨channel, target, ownTime, ownDelay⟩ := y
      simp only [Prod.mk.injEq, ← numbered_eq_some]
      split
      · next c tail hc ht =>
        simp only [hc, ht, Option.some.injEq, List.cons_eq_cons, Move.mk.injEq]
        rfl
      · next none_of =>
        refine ⟨nofun, fun ⟨⟨hc, _⟩, ht⟩ => (none_of _ _ hc ht).elim⟩

theorem checkPairs_eq_some {ps : List (Nat × Nat)} {qs : List (Fin 512 × Nat)} : checkPairs ps = some qs ↔
    ps = qs.map fun x => (x.1.val + 1, x.2) := by
  induction ps generalizing qs with
  | nil => cases qs <;> simp [checkPairs]
  | cons x rest ih =>
    obtain ⟨c, v⟩ := x
    cases qs with
    | nil =>
      rw [checkPairs]
      split <;> simp
    | cons y ys =>
      obtain ⟨k, w⟩ := y
      rw [List.map_cons, List.cons_eq_cons, ← ih, checkPairs]
      simp only [Prod.mk.injEq, ← numbered_eq_some]
      split
      · next c tail hc ht =>
        simp only [hc, ht, Option.some.injEq, List.cons_eq_cons, Prod.mk.injEq]
      · next none_of => exact ⟨nofun, fun ⟨⟨hc, _⟩, ht⟩ => (none_of _ _ hc ht).elim⟩

theorem checkEntries_eq_some {ps : List (Nat × Nat)} {es : List LookEntry} : checkEntries ps = some es ↔
    ps = es.map fun x => (x.circuit.val + 1, x.level) := by
  induction ps generalizing es with
  | nil => cases es <;> simp [checkEntries]
  | cons x rest ih =>
    obtain ⟨c, v⟩ := x
    cases es with
    | nil =>
      rw [checkEntries]
      split <;> simp
    | cons y ys =>
      obtain ⟨k, w⟩ := y
      rw [List.map_cons, List.cons_eq_cons, ← ih, checkEntries]
      simp only [Prod.mk.injEq, ← numbered_eq_some]
      split
      · next c tail hc ht =>
        simp only [hc, ht, Option.some.injEq, List.cons_eq_cons, LookEntry.mk.injEq]
      · next none_of => exact ⟨nofun, fun ⟨⟨hc, _⟩, ht⟩ => (none_of _ _ hc ht).elim⟩

theorem activeValue_eq (n : Nat) :
    activeValue n = (match n with | 0 => some .low | 1 => some .high | _ => none) := by
  match n with
  | 0 | 1 | _ + 2 => rfl

theorem edgesValue_eq (n : Nat) : edgesValue n =
    (match n with | 0 => some .noEdge | 1 => some .assertion | 2 => some .release | 3 => some .both | _ => none) := by
  match n with
  | 0 | 1 | 2 | 3 | _ + 4 => rfl

theorem actionValue_eq_some {n look : Nat} {action : LineAction} : actionValue n look = some action ↔
    (n = 0 ∧ action = .notify) ∨ (n = 1 ∧ action = .freeze) ∨ (n = 2 ∧ ∃ k : Fin 4, look = k.val + 1 ∧ action = .look k) := by
  match n with
  | 0 => simp [actionValue, eq_comm]
  | 1 => simp [actionValue, eq_comm]
  | 2 => simp [actionValue, Option.map_eq_some_iff, numbered_eq_some, eq_comm (b := action)]
  | _ + 3 => simp [actionValue]

/-- Settles O11: each list by induction on its items, the rest by reading the bytes in place. -/
theorem listBodiesReadAsLaidOut : Obligations.ListBodiesReadAsLaidOut := by
  refine ⟨fun slot ms count legal => ?_, fun playback t1 t0 ps count legal => ?_, fun look priority es count legal => ?_,
    fun _ _ => checkMoves_eq_some, fun _ _ => checkPairs_eq_some, fun _ _ => checkEntries_eq_some,
    fun slot fs cue up down upDelay downDelay followTime declared words => ?_, fun index p legal => ?_,
    fun n look => ⟨activeValue_eq n, edgesValue_eq n, fun _ => actionValue_eq_some⟩⟩
  · show (if (ms.flatMap MoveFields.bytes).length = 8 * (byteOf ms.length).toNat then
      some (slot.toNat, readMoves (ms.flatMap MoveFields.bytes)) else none) = _
    rw [length_flatMap_width (k := 8) fun _ => rfl, byteOf_toNat_small count, if_pos rfl, readMoves_flatMap ms legal]
  · rw [readManual, length_pairs, byteOf_toNat_small count, if_pos rfl, wordPairs_flatMap ps legal]
    rfl
  · rw [readLookSet, length_pairs, byteOf_toNat_small count, if_pos rfl, wordPairs_flatMap es legal]
  · simp only [List.mem_cons, List.not_mem_nil, or_false, forall_eq_or_imp, forall_eq] at words
    obtain ⟨cue, up, down, upDelay, downDelay, followTime, declared⟩ := words
    simp only [bytes16, List.cons_append, List.nil_append, readCueOpen, be16_bytes16, *]
  · have points : words (p.cells.flatMap bytes16) = p.cells := words_flatMap p.cells legal
    have length : (p.cells.flatMap bytes16).length = 34 := by
      rw [length_flatMap_width bytes16_length, p.size]
    rw [readLawLoad, dif_pos ⟨by rw [points, p.size], length⟩]
    obtain ⟨cells, size⟩ := p
    simp only [points]

end Sys2Proof.Machine
end

section
namespace Sys2Proof.Machine

variable {s : State}

/-! ### A part that does not run (R178, R180) -/

/-- Every row but those of the RESET line, the supply and the leads is taken by a running part only. -/
theorem exec_stopped (h : s.power ≠ .running) {c : Instr} (hr : c ≠ .resetAssert) (hc : c ≠ .coldStart) (hd : c ≠ .dipRestart)
    (hl : ∀ n v, c ≠ .lineInputChange n v) : exec c s = .next s := by
  cases c
  case resetAssert => exact absurd rfl hr
  case coldStart => exact absurd rfl hc
  case dipRestart => exact absurd rfl hd
  case lineInputChange n v => exact absurd rfl (hl n v)
  case unknownKind link kind tag body =>
    refine congrArg Host.Outcome.next ?_
    split
    · rfl
    · exact whileRunning_stopped h
  all_goals exact congrArg Host.Outcome.next (whileRunning_stopped h)

/-- A line written back with the level it shows. -/
theorem State.setLine_input (n : Fin 4) : s.setLine n { s.line n with input := (s.line n).input } = s := by
  show { s with stage := s.stage.set n (s.stage.get n) } = s
  rw [Table.set_get_self]

theorem State.inputChange_stopped (h : s.power ≠ .running) (n : Fin 4) (v : LineLevel) :
    s.inputChange n v = s.setLine n { s.line n with input := v } := by
  unfold State.inputChange
  dsimp only
  by_cases same : (s.line n).input = v
  · rw [if_pos same, ← same, State.setLine_input]
  · rw [if_neg same, if_neg h]

/-! ### Held in reset (R178) -/

/-- What a part held in reset keeps of the state before: the stored items, the levels of the line leads and what waits. -/
def HeldFrom (s t : State) : Prop :=
  t.power = .held ∧ t.storedBanks = s.storedBanks ∧ t.storedRig = s.storedRig ∧
    (∀ n, (t.line n).input = (s.line n).input) ∧ (∀ k, (t.rack k).sent = [] ∧ (t.rack k).timer = none) ∧
    t.saving = none ∧ t.rebuild = none ∧ t.pending = s.pending

theorem State.assertReset_heldFrom (s : State) : HeldFrom s s.assertReset := by
  refine ⟨rfl, rfl, rfl, fun n => ?_, fun k => ?_, rfl, rfl, rfl⟩
  · show ((s.stage.map fun x => (⟨x.input, none, none⟩ : StageLine)).get n).input = _
    rw [Table.get_map]
    rfl
  · show ((Table.fill 3 RackLine.cold).get k).sent = [] ∧ ((Table.fill 3 RackLine.cold).get k).timer = none
    rw [Table.get_fill]
    exact ⟨rfl, rfl⟩

/-! ### The cold start (R179) -/

/-- A cold start reads nothing but the stored items, the line leads and what waits. -/
theorem State.coldStart_congr {u : State} (banks : u.storedBanks = s.storedBanks) (rig : u.storedRig = s.storedRig)
    (leads : ∀ n, (u.line n).input = (s.line n).input) (pending : u.pending = s.pending) : u.coldStart = s.coldStart := by
  have bank : u.loadedBank = s.loadedBank := funext fun n => by unfold State.loadedBank; rw [banks]
  have record : u.loadedRig = s.loadedRig := by unfold State.loadedRig; rw [rig]
  have notices : u.coldNotices = s.coldNotices := by unfold State.coldNotices; rw [record, banks, rig]
  unfold State.line at leads
  unfold State.coldStart
  rw [bank, record, notices, banks, rig, pending]
  simp only [leads]

theorem Port.cold_get (x : Notices) (l : Link) : (⟨Port.cold x, Port.cold x, Port.cold x⟩ : Ports).get l = Port.cold x := by
  cases l <;> rfl

theorem bankLost_eq (s : State) : (s.storedBanks.cells.any fun x => !x.valid) =
    decide (∃ n, (s.storedBanks.get n).valid = false) := by
  rw [Bool.eq_iff_iff, List.any_eq_true, decide_eq_true_iff]
  simp only [Table.mem_cells, exists_exists_eq_and, Bool.not_eq_true']

/-! ### The DIP restart (R181) -/

/-- The fields in flight of a save after it is abandoned. -/
structure Abandoned (s t : State) : Prop where
  port : ∀ l, t.port l = { s.port l with notices := { (s.port l).notices with
    saveLost := (s.port l).notices.saveLost || s.saving.isSome } }
  banks : ∀ n, t.storedBanks.get n = ⟨(s.storedBanks.get n).valid && s.saving.map (·.cls) != some (.bank n),
    (s.storedBanks.get n).content⟩
  rig : t.storedRig = ⟨s.storedRig.valid && s.saving.map (·.cls) != some .rig, s.storedRig.content⟩
  others : t = { s with saving := none, ports := t.ports, storedBanks := t.storedBanks, storedRig := t.storedRig }

theorem State.get_invalidate (s : State) (cls : SaveClass) (n : Fin 4) : (s.invalidate cls).storedBanks.get n =
    ⟨(s.storedBanks.get n).valid && some cls != some (.bank n), (s.storedBanks.get n).content⟩ := by
  cases cls with
  | bank m =>
    show (s.storedBanks.set m _).get n = _
    rw [Table.get_set]
    by_cases hm : m = n
    · simp [hm]
    · have apart : (some (SaveClass.bank m) != some (.bank n)) = true := bne_iff_ne.2 (by simp [hm])
      rw [if_neg hm, apart, Bool.and_true]
  | rig => exact congrArg (Item.mk · _) (Bool.and_true _).symm

theorem State.storedRig_invalidate (s : State) (cls : SaveClass) :
    (s.invalidate cls).storedRig = ⟨s.storedRig.valid && some cls != some .rig, s.storedRig.content⟩ := by
  cases cls with
  | bank m => exact congrArg (Item.mk · _) (Bool.and_true _).symm
  | rig => exact congrArg (Item.mk · _) (Bool.and_false _).symm

theorem State.invalidate_others (s : State) (cls : SaveClass) :
    s.invalidate cls = { s with
      storedBanks := (s.invalidate cls).storedBanks, storedRig := (s.invalidate cls).storedRig } := by
  cases cls <;> rfl

theorem State.abandonSave_abandoned (s : State) : Abandoned s s.abandonSave := by
  unfold State.abandonSave
  cases h : s.saving with
  | none =>
    refine ⟨fun l => ?_, fun n => ?_, ?_, ?_⟩
    · rw [h, Option.isSome_none, Bool.or_false]
    · rw [h]
      exact congrArg (Item.mk · _) (Bool.and_true _).symm
    · rw [h]
      exact congrArg (Item.mk · _) (Bool.and_true _).symm
    · obtain ⟨_, _, _, _, _, _, _, _, _, _, _, _, _, _, _, _, _, _, _, _, _, _, _, _⟩ := s
      cases h
      rfl
  | some x =>
    refine ⟨fun l => ?_, fun n => ?_, ?_, ?_⟩
    · have port : (s.invalidate x.cls).port l = s.port l := by
        rw [s.invalidate_others]
        rfl
      rw [State.port_notifyAll, h, Option.isSome_some, Bool.or_true]
      exact congrArg (Port.notify .saveLost) port
    · rw [h]
      exact s.get_invalidate x.cls n
    · rw [h]
      exact s.storedRig_invalidate x.cls
    · dsimp only [State.notifyAll]
      rw [s.invalidate_others]

/-- The part resumed, before its monitors, the save in flight and the notices are seen to. -/
def State.resumed (s : State) : State :=
  { s with
    power := .running
    ports := s.ports.map Port.dipRestart
    stage := Table.tabulate fun n => (s.stage.get n).dipRestart (s.rig.lines.get n).debounce
    racks := Table.tabulate fun k => (s.racks.get k).dipRestart (s.rig.racks.get k).period
    rebuild := s.rebuild.map fun r : Rebuild => { r with replyTo := none } }

theorem State.dipRestart_eq (s : State) :
    s.dipRestart = s.resumed.restartMonitors.abandonSave.notifyAll (.restarted .dip) := rfl

theorem State.port_dipRestart (s : State) (l : Link) : s.dipRestart.port l = { s.port l with
    receiver := .hunting
    queue := []
    head := .untaken
    monitor := if (s.port l).state = .live then some (s.limit l * 100) else (s.port l).monitor
    notices := { (s.port l).notices with
      saveLost := (s.port l).notices.saveLost || s.saving.isSome
      restarted := if (s.port l).notices.restarted = some .cold then some .cold else some .dip } } := by
  have port : s.resumed.port l = (s.port l).dipRestart := Ports.get_map Port.dipRestart s.ports l
  rw [s.dipRestart_eq, State.port_notifyAll, (State.abandonSave_abandoned _).port, State.port_restartMonitors, port]
  by_cases live : (s.port l).state = .live
  · rw [if_pos live, if_pos (show (s.port l).dipRestart.state = .live from live)]
    cases l <;> rfl
  · rw [if_neg live, if_neg (show (s.port l).dipRestart.state ≠ .live from live)]
    rfl

theorem State.dipRestart_others (s : State) : s.dipRestart = { s with
    power := .running, saving := none, rebuild := s.rebuild.map (fun r => ⟨r.bank, none, r.cold⟩), ports := s.dipRestart.ports,
    stage := s.resumed.stage, racks := s.resumed.racks, storedBanks := s.dipRestart.storedBanks,
    storedRig := s.dipRestart.storedRig } := by
  have others := (State.abandonSave_abandoned s.resumed.restartMonitors).others
  rw [s.dipRestart_eq]
  dsimp only [State.notifyAll]
  rw [others]
  rfl

/-- Settles O59: which event does what is said by the state of power; the rest reads the states they lead to. -/
theorem resetAndRestartFollowTheirRules : Obligations.ResetAndRestartFollowTheirRules := by
  intro s
  dsimp only
  refine ⟨fun h => ⟨_, congrArg Host.Outcome.next (State.lowerReset_supplied h), s.assertReset_heldFrom⟩,
    fun r h => congrArg Host.Outcome.next (State.lowerReset_dipped h),
    fun h => congrArg Host.Outcome.next (State.startCold_release h),
    fun h => ⟨s.coldStart, congrArg Host.Outcome.next (State.startCold_cold h), ?_⟩,
    fun u banks rig leads pending hs hu => congrArg Host.Outcome.next ?_, fun h => congrArg Host.Outcome.next (whileRunning_running h),
    fun h => ⟨fun c => exec_stopped h, fun n v => congrArg Host.Outcome.next (State.inputChange_stopped h n v)⟩,
    fun h => congrArg Host.Outcome.next (State.recover_supplied h),
    fun h => ⟨_, congrArg Host.Outcome.next (State.recover_reset h), s.assertReset_heldFrom⟩,
    fun h => ⟨s.dipRestart, congrArg Host.Outcome.next (State.recover_resumes h), ?_⟩⟩
  · refine ⟨rfl, rfl, rfl, rfl, rfl, rfl, rfl, fun i => Table.get_fill _ i, fun p c => ?_, fun p => Table.get_fill _ p, rfl,
      fun n => Table.get_tabulate _ n, rfl, rfl, rfl, rfl, rfl, fun n => Table.get_tabulate _ n, fun k => Table.get_fill _ k,
      fun k => Table.get_fill _ k, fun l => ?_, rfl⟩
    · show ((Table.fill 4 (Table.fill 512 ChannelRecord.cold)).get p).get c = _
      rw [Table.get_fill, Table.get_fill]
      rfl
    · refine (Port.cold_get s.coldNotices l).trans ?_
      unfold Port.cold State.coldNotices
      rw [bankLost_eq]
      rfl
  · rw [State.startCold_cold hs, State.startCold_cold hu, State.coldStart_congr banks rig leads pending]
  · have others := s.dipRestart_others
    have save := State.abandonSave_abandoned s.resumed.restartMonitors
    refine ⟨?_, ?_, ?_, s.port_dipRestart, fun n => ?_, fun k => ?_, save.banks, save.rig, ?_⟩
    · rw [others]
    · rw [others]
    · rw [others]
    · rw [others]
      exact Table.get_tabulate _ n
    · rw [others]
      exact Table.get_tabulate _ k
    · rw [others]

end Sys2Proof.Machine
end

section
namespace Sys2Proof.Machine

variable {s : State}

/-! ### Pages of items of one width (R186) -/

/-- The item at a position of a list written out after its leading bytes. -/
theorem chunk_eq {α : Type} {f : α → List Byte} {k m j : Nat} {lead : List Byte} {l : List α} {a : α} (width : ∀ a, (f a).length = k)
    (hm : lead.length = m) (ha : l[j]? = some a) : ((lead ++ l.flatMap f).drop (m + k * j)).take k = f a := by
  rw [← List.drop_drop, ← hm, List.drop_left]
  induction l generalizing j with
  | nil => simp at ha
  | cons x xs ih =>
    rw [List.flatMap_cons]
    cases j with
    | zero =>
      obtain rfl : x = a := by simpa using ha
      rw [Nat.mul_zero, List.drop_zero, ← width x, List.take_left]
    | succ j =>
      rw [Nat.mul_succ, Nat.add_comm, ← List.drop_drop, ← width x, List.drop_left, width x]
      exact ih ha

theorem length_page {α : Type} {f : α → List Byte} {k : Nat} (width : ∀ a, (f a).length = k) (lead : List Byte) (l : List α) :
    (lead ++ l.flatMap f).length = lead.length + k * l.length := by
  rw [List.length_append, length_flatMap_width width]

/-- Indices that all lie in the range. -/
theorem span_val {n first m : Nat} (h : first + m ≤ n) : (span n first m).map Fin.val = (List.range m).map (first + ·) := by
  unfold span
  rw [List.map_filterMap, ← List.filterMap_eq_map]
  refine List.filterMap_congr fun j hj => ?_
  have := List.mem_range.1 hj
  rw [indexed, dif_pos (by omega)]
  rfl

theorem span_length {n first m : Nat} (h : first + m ≤ n) : (span n first m).length = m := by
  have := congrArg List.length (span_val h)
  simpa using this

theorem span_getElem {n first m j : Nat} (h : first + m ≤ n) (hj : j < m) {c : Fin n} (hc : c.val = first + j) :
    (span n first m)[j]? = some c := by
  have at_j : ((span n first m).map Fin.val)[j]? = some c.val := by
    rw [span_val h, hc]
    simp [hj]
  rw [List.getElem?_map, Option.map_eq_some_iff] at at_j
  obtain ⟨d, hd, e⟩ := at_j
  rw [hd, Fin.ext e]

theorem byteOf_toNat_self (x : Byte) : byteOf x.toNat = x :=
  BitVec.eq_of_toNat_eq (by rw [byteOf_toNat]; exact Nat.mod_eq_of_lt x.isLt)

theorem bytes16_be (x y : Byte) : bytes16 (x.toNat * 256 + y.toNat) = [x, y] := by
  have := x.isLt; have := y.isLt
  have hi : byteOf ((x.toNat * 256 + y.toNat) / 256) = x := BitVec.eq_of_toNat_eq (by rw [byteOf_toNat]; omega)
  have lo : byteOf (x.toNat * 256 + y.toNat) = y := BitVec.eq_of_toNat_eq (by rw [byteOf_toNat]; omega)
  rw [bytes16, hi, lo]

theorem byteOf_be (x y : Byte) : byteOf (x.toNat * 256 + y.toNat) = y :=
  BitVec.eq_of_toNat_eq (by have := y.isLt; rw [byteOf_toNat]; omega)

/-! ### The bytes of each kind of item -/

theorem ChannelRecord.bytes_eq (x : ChannelRecord) : x.bytes = bytes16 x.level ++ match x.own with
    | none => [0, 0xFF] ++ List.replicate 12 0
    | some o => (match o.phase with | .waiting => [1] | .fading => [2]) ++ [byteOf o.owner.val] ++
      bytes16 o.start ++ bytes16 o.target ++ bytes32 o.delay ++ bytes32 o.time := by
  obtain ⟨level, _ | ⟨owner, _ | _, start, target, delay, time⟩⟩ := x <;> rfl

theorem ChannelRecord.length_bytes (x : ChannelRecord) : x.bytes.length = 16 := by
  obtain ⟨level, _ | o⟩ := x <;> rfl

theorem RunEntry.bytes_eq (e : RunEntry) : e.bytes =
    (let place : List Byte := [byteOf e.number.val]
     let playback := byteOf (e.playback.val + 1)
     match e.kind with
      | .cue t c _ => place ++ [0, playback, byteOf t.val] ++ bytes16 c
      | .back c _ => place ++ [1, playback, 0xFF] ++ bytes16 c
      | .release => place ++ [2, playback, 0xFF, 0xFF, 0xFF]
      | .manual => place ++ [3, playback, 0xFF, 0xFF, 0xFF]) ++
    bytes32 e.clock ++ bytes16 e.owned ++
    (match e.follow with | some f => byteOf f.slot.val :: bytes32 f.due | none => [0xFF, 0, 0, 0, 0]) ++
    (match e.startedBy with | .desk .a => [1] | .desk .b => [2] | .follow => [3]) := by
  obtain ⟨number, birth, ⟨t, c, _ | f⟩ | _ | _ | _, playback, clock, owned, (_ | _) | _⟩ := e <;> rfl

theorem RunEntry.length_bytes (e : RunEntry) : e.bytes.length = 18 := by
  obtain ⟨number, birth, ⟨t, c, _ | f⟩ | _ | _ | _, playback, clock, owned, who⟩ := e <;> rfl

theorem Slot.bytes_eq (x : Slot) : x.bytes = match x with
    | .empty => 0 :: List.replicate 7 0xFF
    | .filling h ms d => [1] ++ bytes16 h.cue ++ bytes16 h.declared ++ bytes16 ms.length ++
      (match d with | .a => [1] | .b => [2])
    | .ready h _ => [2] ++ bytes16 h.cue ++ bytes16 h.declared ++ List.replicate 3 0xFF
    | .running h _ => [3] ++ bytes16 h.cue ++ bytes16 h.declared ++ List.replicate 3 0xFF := by
  rcases x with _ | ⟨h, ms, _ | _⟩ | _ | _ <;> rfl

theorem Slot.length_bytes (x : Slot) : x.bytes.length = 8 := by
  cases x <;> rfl

theorem Park.bytes_eq (x : Park) : x.bytes = bytes16 (x.circuit.val + 1) ++
    (match x.flash with
      | none => 0 :: bytes16 x.levelA ++ [0, 0, 0xFF, 0xFF, 0xFF]
      | some f => 1 :: bytes16 x.levelA ++ bytes16 f.levelB ++ [byteOf f.onTime, byteOf f.offTime] ++
        (match f.phase with | .a => [0] | .b => [1])) ++
    (match x.owner with | .a => [1] | .b => [2] | .c => [3]) := by
  rcases x with ⟨circuit, levelA, _ | ⟨b, on, off, _ | _, timer⟩, _ | _ | _⟩ <;> rfl

theorem Park.length_bytes (x : Park) : x.bytes.length = 11 := by
  rcases x with ⟨circuit, levelA, _ | f, owner⟩ <;> rfl

theorem profileBytes_eq (laws : List Points) (x : Profile) : profileBytes laws x =
    [byteOf x.page, byteOf x.index] ++ bytes16 x.preheat ++ bytes16 x.topSet ++
      [if (x.page = 0 ∧ 5 ≤ x.index) ∨ (x.page ≠ 0 ∧ laws.length ≤ x.index) then 1 else 0] := by
  unfold profileBytes undefinedLaw
  by_cases hp : x.page = 0 <;> simp [hp, bit]

/-- The level of a circuit in the last frame of its line. -/
theorem State.sentLevel_eq {c : Fin 768} {k : Fin 3} {i : Fin 256} (h : c.val = 256 * k.val + i.val) :
    s.sentLevel c = match (s.rack k).last with | some f => f.levels.get i | none => 0 := by
  have hk : (⟨c.val / 256, Nat.div_lt_of_lt_mul c.isLt⟩ : Fin 3) = k := Fin.ext (by simp only [h]; omega)
  have hi : (⟨c.val % 256, Nat.mod_lt _ (by decide)⟩ : Fin 256) = i := Fin.ext (by simp only [h]; omega)
  rw [← hk, ← hi]
  rfl

theorem State.rackMark_eq {first : Nat} (h : 1 ≤ first) (k : Fin 3) : s.rackMark first k =
    if first ≤ 256 * k.val + 256 ∧ 256 * k.val + 1 ≤ first + 63 then
      (match (s.rack k).last with
        | some ⟨.bits8, _⟩ => [8, 0]
        | some ⟨.bits16, _⟩ => [16, 0]
        | none => [0, 1])
    else [0, 0] := by
  have touched : ((first - 1) / 256 ≤ k.val ∧ k.val ≤ (first + 62) / 256) ↔
      first ≤ 256 * k.val + 256 ∧ 256 * k.val + 1 ≤ first + 63 := by omega
  unfold State.rackMark
  simp only [touched]
  split
  · rcases (s.rack k).last with _ | ⟨_ | _, levels⟩ <;> rfl
  · rfl

theorem State.length_rackMark (first : Nat) (k : Fin 3) : (s.rackMark first k).length = 2 := by
  unfold State.rackMark
  split
  · cases (s.rack k).last <;> rfl
  · rfl

end Sys2Proof.Machine
end

section
namespace Sys2Proof.Machine

variable {s : State}

/-! ### Which page a READ is answered with (R170) -/

theorem State.readPage_eq_some {n sel first : Nat} {body : List Byte} : s.readPage ⟨n, sel, first⟩ = some body ↔
    (n = 1 ∧ (1 ≤ first ∧ first ≤ 449) ∧ ∃ p : Fin 4, sel = p.val + 1 ∧ s.channelsPage p first = body) ∨
    (n = 2 ∧ s.runListPage = body) ∨ (n = 3 ∧ s.slotsPage = body) ∨ (n = 4 ∧ first ≤ 63 ∧ s.parksPage first = body) ∨
    (n = 5 ∧ (1 ≤ first ∧ first ≤ 705) ∧ s.outputsPage first = body) ∨
    (n = 6 ∧ first ≤ 1023 ∧ ∃ p : Fin 4, sel = p.val + 1 ∧ s.patchPage p first = body) ∨
    (n = 7 ∧ (1 ≤ first ∧ first ≤ 737) ∧ s.profilesPage first = body) ∨
    (n = 8 ∧ ∃ p : Fin 4, first = p.val + 1 ∧ s.restorePage p = body) := by
  match n with
  | 0 | 2 | 3 | 4 | 5 | 7 | _ + 9 => simp [State.readPage, within]
  | 1 | 6 | 8 => simp [State.readPage, within, Option.map_eq_some_iff, numbered_eq_some]

theorem exists_numbered {n k : Nat} : (∃ p : Fin n, k = p.val + 1) ↔ 1 ≤ k ∧ k ≤ n := by
  constructor
  · rintro ⟨p, rfl⟩
    omega
  · exact fun h => ⟨⟨k - 1, by omega⟩, by simp only; omega⟩

theorem State.readPage_isSome {n sel first : Nat} : (∃ body, s.readPage ⟨n, sel, first⟩ = some body) ↔
    (n = 1 ∧ (1 ≤ first ∧ first ≤ 449) ∧ 1 ≤ sel ∧ sel ≤ 4) ∨ n = 2 ∨ n = 3 ∨ (n = 4 ∧ first ≤ 63) ∨
    (n = 5 ∧ 1 ≤ first ∧ first ≤ 705) ∨ (n = 6 ∧ first ≤ 1023 ∧ 1 ≤ sel ∧ sel ≤ 4) ∨ (n = 7 ∧ 1 ≤ first ∧ first ≤ 737) ∨
    (n = 8 ∧ 1 ≤ first ∧ first ≤ 4) := by
  simp only [State.readPage_eq_some, exists_or, ← exists_numbered (n := 4), exists_and_left, exists_eq', and_true,
    exists_comm (α := List Byte)]

/-- The first byte of every page is its kind. -/
theorem State.head_readPage {n sel first : Nat} {body : List Byte} (h : s.readPage ⟨n, sel, first⟩ = some body) :
    body.head? = some (byteOf n) := by
  rw [State.readPage_eq_some] at h
  rcases h with ⟨rfl, -, p, -, rfl⟩ | ⟨rfl, rfl⟩ | ⟨rfl, rfl⟩ | ⟨rfl, -, rfl⟩ | ⟨rfl, -, rfl⟩ | ⟨rfl, -, p, -, rfl⟩ |
    ⟨rfl, -, rfl⟩ | ⟨rfl, p, -, rfl⟩ <;> rfl

/-- A READ at the head of its queue is answered with its page, or BAD_FIELD. -/
theorem exec_read {l : Link} {tag page selector f1 f0 : Byte} (h : AtHead s l ⟨kindRead, tag, [page, selector, f1, f0]⟩) :
    exec (.read l tag [page, selector, f1, f0]) s =
      .next (match s.readPage ⟨page.toNat, selector.toNat, f1.toNat * 256 + f0.toNat⟩ with
        | none => s.answered l .badField
        | some body => s.answerHead l .ok body {}) := by
  show Host.Outcome.next (requestRow l _ (decideRead l _) s) = _
  rw [requestRow_atHead _ h]
  unfold decideRead
  show Host.Outcome.next (settle l (match s.readPage ⟨page.toNat, selector.toNat, f1.toNat * 256 + f0.toNat⟩ with
    | none => answer .badField s
    | some body => .reply .ok body {} s)) = _
  split <;> rfl

/-! ### The pages (R186) -/

theorem State.channelsPage_spec (p : Fin 4) {first : Nat} (h : 1 ≤ first ∧ first ≤ 449) :
    (s.channelsPage p first).length = 1028 ∧ (s.channelsPage p first).take 4 = [1, byteOf (p.val + 1)] ++ bytes16 first ∧
    ∀ (j : Fin 64) (c : Fin 512), c.val + 1 = first + j.val →
      ((s.channelsPage p first).drop (4 + 16 * j.val)).take 16 = (s.channel p c).bytes := by
  have room : first - 1 + 64 ≤ 512 := by omega
  unfold State.channelsPage
  refine ⟨?_, rfl, fun j c hc => ?_⟩
  · rw [length_page fun c => (s.channel p c).length_bytes, span_length room]
    rfl
  · exact chunk_eq (f := fun c => (s.channel p c).bytes) (fun c => (s.channel p c).length_bytes) rfl
      (span_getElem room j.isLt (by omega))

theorem State.runListPage_spec : s.runListPage.length = 2 + 18 * s.runList.length ∧
    s.runListPage.take 2 = [2, byteOf s.runList.length] ∧
    ∀ j e, s.runList[j]? = some e → (s.runListPage.drop (2 + 18 * j)).take 18 = e.bytes :=
  ⟨length_page RunEntry.length_bytes _ _, rfl, fun _ _ he => chunk_eq RunEntry.length_bytes rfl he⟩

theorem State.slotsPage_spec : s.slotsPage.length = 257 ∧
    ∀ t : Fin 32, (s.slotsPage.drop (1 + 8 * t.val)).take 8 = (s.slot t).bytes := by
  refine ⟨?_, fun t => ?_⟩
  · show ([3] ++ s.slots.cells.flatMap Slot.bytes).length = _
    rw [length_page Slot.length_bytes, s.slots.size]
    rfl
  · refine chunk_eq (lead := [3]) Slot.length_bytes rfl ?_
    rw [List.getElem?_eq_getElem (by rw [s.slots.size]; exact t.isLt)]
    rfl

theorem State.parksPage_spec (first : Nat) : (s.parksPage first).length = 4 + 11 * (s.parks.length - first) ∧
    (s.parksPage first).take 4 = [4, byteOf s.parks.length, byteOf first, byteOf (s.parks.length - first)] ∧
    ∀ j x, s.parks[first + j]? = some x → ((s.parksPage first).drop (4 + 11 * j)).take 11 = x.bytes := by
  unfold State.parksPage
  refine ⟨?_, ?_, fun j x hx => chunk_eq Park.length_bytes rfl ?_⟩
  · rw [length_page Park.length_bytes, List.length_drop]
    rfl
  · rw [← List.length_drop]
    rfl
  · rw [List.getElem?_drop]
    exact hx

theorem State.outputsPage_spec {first : Nat} (h : 1 ≤ first ∧ first ≤ 705) : (s.outputsPage first).length = 137 ∧
    (s.outputsPage first).take 3 = [5] ++ bytes16 first ∧
    (∀ k : Fin 3, ((s.outputsPage first).drop (3 + 2 * k.val)).take 2 = s.rackMark first k) ∧
    ∀ (j : Fin 64) (c : Fin 768), c.val + 1 = first + j.val →
      ((s.outputsPage first).drop (9 + 2 * j.val)).take 2 = bytes16 (s.sentLevel c) := by
  have room : first - 1 + 64 ≤ 768 := by omega
  obtain ⟨a0, b0, mark0⟩ := List.length_eq_two.1 (s.length_rackMark first 0)
  obtain ⟨a1, b1, mark1⟩ := List.length_eq_two.1 (s.length_rackMark first 1)
  obtain ⟨a2, b2, mark2⟩ := List.length_eq_two.1 (s.length_rackMark first 2)
  unfold State.outputsPage
  refine ⟨?_, rfl, fun k => ?_, fun j c hc => ?_⟩
  · rw [length_page fun c => bytes16_length (s.sentLevel c), span_length room, mark0, mark1, mark2]
    rfl
  · rw [mark0, mark1, mark2]
    match k with
    | 0 => exact mark0.symm
    | 1 => exact mark1.symm
    | 2 => exact mark2.symm
  · refine chunk_eq (f := fun c => bytes16 (s.sentLevel c)) (fun c => bytes16_length _) ?_ (span_getElem room j.isLt (by omega))
    rw [mark0, mark1, mark2]
    rfl

theorem PatchEntry.length_bytes (e : PatchEntry) : e.bytes.length = 5 := rfl

theorem State.patchPage_spec (n : Fin 4) (first : Nat) :
    (s.patchPage n first).length = 7 + 5 * min 32 ((s.bank n).length - first) ∧
    (s.patchPage n first).take 7 = [6, byteOf (n.val + 1)] ++ bytes16 first ++ bytes16 (s.bank n).length ++
      [byteOf (min 32 ((s.bank n).length - first))] ∧
    ∀ j e, j < 32 → (s.bank n)[first + j]? = some e → ((s.patchPage n first).drop (7 + 5 * j)).take 5 = e.bytes := by
  have count : (((s.bank n).drop first).take 32).length = min 32 ((s.bank n).length - first) := by
    rw [List.length_take, List.length_drop]
  unfold State.patchPage
  refine ⟨?_, ?_, fun j e hj he => chunk_eq PatchEntry.length_bytes rfl ?_⟩
  · rw [length_page PatchEntry.length_bytes, count]
    rfl
  · rw [← count]
    rfl
  · rw [List.getElem?_take_of_lt hj, List.getElem?_drop]
    exact he

theorem length_profileBytes (laws : List Points) (x : Profile) : (profileBytes laws x).length = 7 := rfl

theorem State.profilesPage_spec {first : Nat} (h : 1 ≤ first ∧ first ≤ 737) : (s.profilesPage first).length = 228 ∧
    (s.profilesPage first).take 4 = [7] ++ bytes16 first ++ [byteOf s.rig.laws.length] ∧
    ∀ (j : Fin 32) (c : Fin 768), c.val + 1 = first + j.val →
      ((s.profilesPage first).drop (4 + 7 * j.val)).take 7 = profileBytes s.rig.laws (s.rig.profiles.get c) := by
  have room : first - 1 + 32 ≤ 768 := by omega
  unfold State.profilesPage
  refine ⟨?_, rfl, fun j c hc => ?_⟩
  · rw [length_page fun c => length_profileBytes s.rig.laws (s.rig.profiles.get c), span_length room]
    rfl
  · exact chunk_eq (f := fun c => profileBytes s.rig.laws (s.rig.profiles.get c)) (fun _ => rfl) rfl
      (span_getElem room j.isLt (by omega))

theorem State.restorePage_spec (p : Fin 4) : (s.restorePage p).length = 3 + 4 * (s.playback p).stack.length ∧
    (s.restorePage p).take 3 = [8, byteOf (p.val + 1), byteOf (s.playback p).stack.length] ∧
    ∀ j r, (s.playback p).stack[j]? = some r →
      ((s.restorePage p).drop (3 + 4 * j)).take 4 = bytes16 r.priorCue ++ bytes16 r.pairs.length :=
  have width (r : RestoreEntry) : (bytes16 r.priorCue ++ bytes16 r.pairs.length).length = 4 := rfl
  ⟨length_page width _ _, rfl, fun _ _ hr => chunk_eq width rfl hr⟩

/-- Settles O17: the page a READ is answered with, and each page by its items. -/
theorem readAnswersPagesOfTheirSize : Obligations.ReadAnswersPagesOfTheirSize := by
  intro s l tag page selector f1 f0 hq
  dsimp only
  have as_byte {p : Fin 4} {x : Byte} (h : x.toNat = p.val + 1) : byteOf (p.val + 1) = x := by
    rw [← h, byteOf_toNat_self]
  have as_bytes : bytes16 (f1.toNat * 256 + f0.toNat) = [f1, f0] := bytes16_be f1 f0
  have low : byteOf (f1.toNat * 256 + f0.toNat) = f0 := byteOf_be f1 f0
  have answered := State.readPage_isSome (s := s) (n := page.toNat) (sel := selector.toNat)
    (first := f1.toNat * 256 + f0.toNat)
  have as_page (k : Byte) : page = k ↔ page.toNat = k.toNat := BitVec.toNat_inj.symm
  rw [exec_read hq]
  obtain ⟨first, read⟩ : ∃ first, f1.toNat * 256 + f0.toNat = first := ⟨_, rfl⟩
  simp only [read] at as_bytes low answered ⊢
  refine ⟨fun outside => ?_, fun inside => ?_⟩
  · cases page_eq : s.readPage ⟨page.toNat, selector.toNat, first⟩ with
    | none => rfl
    | some body =>
      refine absurd (answered.1 ⟨body, page_eq⟩) fun h => outside ?_
      simpa [as_page, and_comm] using h
  · obtain ⟨body, page_eq⟩ := answered.2 (by simpa [as_page, and_comm] using inside)
    rw [page_eq]
    refine ⟨body, rfl, (State.head_readPage page_eq).trans (congrArg some (byteOf_toNat_self page)), fun p hp hsel => ?_,
      fun hp => ?_, fun hp => ?_, fun hp => ?_, fun hp => ?_, fun n hp hsel => ?_, fun hp => ?_, fun p hp hfirst => ?_⟩
    all_goals
      subst hp
      rw [State.readPage_eq_some] at page_eq
    · obtain ⟨range, q, hsel', rfl⟩ : (1 ≤ first ∧ first ≤ 449) ∧ ∃ q : Fin 4, selector.toNat = q.val + 1 ∧
        s.channelsPage q first = body := by simpa using page_eq
      obtain rfl : p = q := Fin.ext (by omega)
      obtain ⟨length, lead, records⟩ := s.channelsPage_spec p range
      refine ⟨length, ?_, fun j c hc => (records j c hc).trans (ChannelRecord.bytes_eq _)⟩
      rw [lead, as_byte hsel, as_bytes]
      rfl
    · obtain rfl : s.runListPage = body := by simpa using page_eq
      obtain ⟨length, lead, entries⟩ := s.runListPage_spec
      exact ⟨length, lead, fun j e he => (entries j e he).trans e.bytes_eq⟩
    · obtain rfl : s.slotsPage = body := by simpa using page_eq
      exact ⟨s.slotsPage_spec.1, fun t => (s.slotsPage_spec.2 t).trans (Slot.bytes_eq _)⟩
    · obtain ⟨-, rfl⟩ : first ≤ 63 ∧ s.parksPage first = body := by simpa using page_eq
      obtain ⟨length, lead, parks⟩ := s.parksPage_spec first
      exact ⟨length, low ▸ lead, fun j x hx => (parks j x hx).trans x.bytes_eq⟩
    · obtain ⟨range, rfl⟩ : (1 ≤ first ∧ first ≤ 705) ∧ s.outputsPage first = body := by simpa using page_eq
      obtain ⟨length, lead, marks, levels⟩ := s.outputsPage_spec range
      refine ⟨length, ?_, fun k => (marks k).trans (State.rackMark_eq range.1 k), fun j k i hi => ?_⟩
      · rw [lead, as_bytes]
        rfl
      · exact (levels j ⟨256 * k.val + i.val, by omega⟩ hi).trans (congrArg bytes16 (State.sentLevel_eq rfl))
    · obtain ⟨-, q, hsel', rfl⟩ : first ≤ 1023 ∧ ∃ q : Fin 4, selector.toNat = q.val + 1 ∧ s.patchPage q first = body := by
        simpa using page_eq
      obtain rfl : n = q := Fin.ext (by omega)
      obtain ⟨length, lead, entries⟩ := s.patchPage_spec n first
      refine ⟨length, ?_, entries⟩
      rw [lead, as_byte hsel, as_bytes]
      rfl
    · obtain ⟨range, rfl⟩ : (1 ≤ first ∧ first ≤ 737) ∧ s.profilesPage first = body := by simpa using page_eq
      obtain ⟨length, lead, profiles⟩ := s.profilesPage_spec range
      refine ⟨length, ?_, fun j c hc => (profiles j c hc).trans (profileBytes_eq _ _)⟩
      rw [lead, as_bytes]
      rfl
    · obtain ⟨q, hfirst', rfl⟩ : ∃ q : Fin 4, first = q.val + 1 ∧ s.restorePage q = body := by simpa using page_eq
      obtain rfl : p = q := Fin.ext (by omega)
      obtain ⟨length, lead, stack⟩ := s.restorePage_spec p
      refine ⟨length, ?_, stack⟩
      rw [lead, ← hfirst, low]

end Sys2Proof.Machine
end

section
namespace Sys2Proof.Machine

variable {s t u : State} {firing : List Nat} {n : Fin 16} {p : Fin 4}

/-! ### The run list alone (R25) -/

/-- From `s` to `t` entries can only have left the run list, and no start has been made. -/
structure Thins (s t : State) : Prop where
  sub : t.tags.Sublist s.tags
  births : t.births = s.births

theorem Thins.of_same (tags : t.tags = s.tags) (births : t.births = s.births) : Thins s t := ⟨tags ▸ .refl _, births⟩

theorem Thins.refl (s : State) : Thins s s := .of_same rfl rfl

theorem Thins.trans (h : Thins s t) (k : Thins t u) : Thins s u := ⟨k.sub.trans h.sub, k.births.trans h.births⟩

theorem State.RunListLegal.thins (h : s.RunListLegal) (k : Thins s t) : t.RunListLegal := h.of_tags k.sub k.births.ge

theorem State.RunListLegal.of_same (h : s.RunListLegal) (runList : t.runList = s.runList) (births : t.births = s.births) :
    t.RunListLegal :=
  h.thins (.of_same (congrArg (List.map RunEntry.tag) runList) births)

theorem State.modEntry_thins {f : RunEntry → RunEntry} (hf : ∀ e, (f e).tag = e.tag := by exact fun _ => rfl) :
    Thins s (s.modEntry n f) :=
  .of_same (State.tags_modEntry n hf) rfl

theorem State.removeEntry_thins (e : RunEntry) : Thins s (s.removeEntry e) := by
  rw [s.removeEntry_eq]
  exact ⟨List.filter_sublist.map _, rfl⟩

theorem State.testLeave_thins (firing : List Nat) (n : Fin 16) : Thins s (s.testLeave firing n) := by
  obtain h | ⟨e, -, -, h⟩ := s.testLeave_cases firing n <;> rw [h]
  · exact .refl s
  · exact State.removeEntry_thins e

theorem State.testLeaveBorn_thins (firing : List Nat) (b : Nat) : Thins s (s.testLeaveBorn firing b) := by
  obtain h | ⟨e, -, -, h⟩ := s.testLeaveBorn_cases firing b <;> rw [h]
  · exact .refl s
  · exact State.removeEntry_thins e

theorem State.release_thins (firing : List Nat) (x : ChannelRecord) : Thins s (s.release firing x) := by
  unfold State.release
  split
  · exact Thins.trans State.modEntry_thins (State.testLeave_thins _ _)
  · exact .refl s

theorem State.takeover_thins (firing : List Nat) (n : Fin 16) (p : Fin 4) (k : Take) :
    Thins s (s.takeover firing n p k) :=
  have counted : Thins (s.release firing (s.channel p k.channel)) (s.takeover firing n p k) :=
    .of_same (State.tags_modEntry n fun _ => rfl) rfl
  (State.release_thins firing _).trans counted

theorem State.takeovers_thins (firing : List Nat) (n : Fin 16) (p : Fin 4) (takes : List Take) :
    Thins s (takes.foldl (fun s k => s.takeover firing n p k) s) := by
  induction takes generalizing s with
  | nil => exact .refl s
  | cons k ks ih => exact (State.takeover_thins firing n p k).trans ih

theorem State.evaluate_thins (firing : List Nat) (n : Fin 16) : Thins s (s.evaluate firing n) := by
  unfold State.evaluate
  split
  · exact .refl s
  · next e _ =>
    dsimp only
    have records (x : Table 4 (Table 512 ChannelRecord)) : Thins s { s with channels := x } := .of_same rfl rfl
    split
    · exact (records _).trans State.modEntry_thins
    · exact ((records _).trans State.modEntry_thins).trans (State.testLeave_thins _ _)

theorem State.makeRoom_thins : Thins s s.makeRoom := by
  obtain h | ⟨e, -, h⟩ := s.makeRoom_cases <;> rw [h]
  · exact .refl s
  · refine ⟨?_, State.forceComplete_births e⟩
    rw [State.tags, State.forceComplete_runList]
    exact List.filter_sublist.map _

/-! ### The run list through starts, follows and clocks (R25, R30, R32, R36) -/

namespace State.RunListLegal

section
variable {kind : EntryKind} {who : StartedBy} {takes : List Take} {i : Fin 32} {h : CueHeader} {ms : List Move}

/-- A start makes room before its entry joins, so that the list stays within 16. -/
theorem start (legal : s.RunListLegal) : (s.start firing kind p who takes).RunListLegal := by
  have roomy := legal.thins State.makeRoom_thins
  have created := State.createEntry_runListLegal roomy (State.makeRoom_has_room legal.length_le) kind p who
  exact created.thins ((State.takeovers_thins firing _ p takes).trans (State.evaluate_thins firing _))

theorem testLeaveBorn (legal : s.RunListLegal) (firing : List Nat) (b : Nat) : (s.testLeaveBorn firing b).RunListLegal :=
  legal.thins (State.testLeaveBorn_thins firing b)

theorem plainStart (legal : s.RunListLegal) : (s.plainStart kind p who takes).RunListLegal := legal.start.testLeaveBorn _ _

theorem cueStart (legal : s.RunListLegal) : (s.cueStart firing p i h ms who).RunListLegal :=
  (legal.of_same (t := s.beforeStart p i h ms who) State.beforeStart_runList State.beforeStart_births).start

end

theorem testFollow (legal : s.RunListLegal) (fuel : Nat) (chain : List (Fin 32)) (firing : List Nat) (b : Nat) :
    (State.testFollow fuel chain firing b s).RunListLegal := by
  induction fuel using Nat.strong_induction_on generalizing s chain firing b with
  | _ fuel ih =>
    have cleared (e : RunEntry) : (s.modEntry e.number RunEntry.clearFollow).RunListLegal :=
      legal.thins (State.modEntry_thins RunEntry.tag_clearFollow)
    obtain ⟨-, h⟩ | ⟨_, -, -, h⟩ | ⟨e, _, -, -, -, -, h⟩ | ⟨e, _, _, _, -, -, -, -, -, some_fuel, h⟩ :=
      s.testFollow_cases fuel chain firing b <;> rw [h]
    · exact legal
    · exact legal.testLeaveBorn firing b
    · exact ((cleared e).of_same (t := (s.modEntry _ _).notifyDesks _) rfl rfl).testLeaveBorn firing b
    · exact (ih _ (Nat.pred_lt some_fuel) (cleared e).cueStart _ _ _).testLeaveBorn firing b

theorem visit (legal : s.RunListLegal) (b : Nat) : (s.visit b).RunListLegal := by
  unfold State.visit
  split
  · exact legal
  · split
    · exact (legal.thins (.trans State.modEntry_thins (State.evaluate_thins _ _))).testFollow _ _ _ _
    · exact legal

theorem tick (legal : s.RunListLegal) : s.tick.RunListLegal := by
  unfold State.tick
  generalize s.runList.map (·.birth) = bs
  induction bs generalizing s with
  | nil => exact legal
  | cons b bs ih => exact ih (legal.visit b)

theorem followDue (legal : s.RunListLegal) (n : Fin 16) : (s.followDue n).RunListLegal := by
  unfold State.followDue
  repeat' split
  · exact legal
  · exact legal.testFollow _ _ _ _
  · exact legal

theorem of_fills (legal : s.RunListLegal) (fills : FillsOnly s t) : t.RunListLegal :=
  legal.of_same (by rw [fills.2.2]) (by rw [fills.2.2])

theorem of_empty (empty : s.runList = []) : s.RunListLegal := by
  constructor <;> simp [empty]

end State.RunListLegal

theorem runListLegal_kept (r : RigRecord) : KeptBySteps r State.RunListLegal where
  calm h legal := legal.of_same h.runList h.births
  blank h := .of_empty h.runList
  endFill d legal := legal.of_fills (State.endFill_only _ d)
  startFill d i h legal _ _ _ _ := legal.of_fills (State.startFill_only _ d i h)
  absorb d i _ legal _ _ := legal.of_fills (State.setFill_only _ d _)
  endAbsorb d i _ legal _ := legal.of_fills (State.setFill_only _ d _)
  addMoves _ _ _ _ _ legal _ _ _ _ := legal.of_same rfl rfl
  close d i h held legal _ _ :=
    (legal.of_same (t := State.setSlot _ i (.ready h held)) rfl rfl).of_fills (State.setFill_only _ d none)
  emptySlot i legal _ := legal.of_fills (State.emptySlot_only _ i)
  takeGo d p i h ms legal hx := by
    unfold State.takeGo
    rw [State.beginCue_eq _ [] p i h ms (.desk d) hx]
    exact legal.cueStart.testFollow _ _ _ _
  takeBack d p top rest legal _ := (legal.of_same (t := State.modPlayback _ p _) rfl rfl).plainStart
  takeManual _ _ _ legal _ _ := legal.plainStart
  takeRelease d p legal := by
    have cleared := legal.of_same (t := State.modPlayback _ p fun x => { x with stack := [], currentCue := 0 }) rfl rfl
    obtain h | h := State.takeRelease_cases d p <;> rw [h]
    · exact cleared
    · exact cleared.plainStart
  tick legal := legal.tick
  followDue n legal := legal.followDue n

/-- Settles O36: no operation that a step can make leaves the legal run list (`runListLegal_kept`). -/
theorem everyStepKeepsTheRunListLegal : Obligations.EveryStepKeepsTheRunListLegal := fun s _ legal h =>
  (runListLegal_kept s.rig).step rfl legal h

end Sys2Proof.Machine
end

section
namespace Sys2Proof.Machine

variable {s t u v : State} {firing : List Nat} {n : Fin 16} {p : Fin 4} {e : RunEntry} {b : Nat}

/-! ### Forced completion (R30) -/

theorem State.makeRoom_full {rest : List RunEntry} (list : s.runList = e :: rest) (full : rest.length = 15) :
    s.makeRoom = s.forceComplete e := by
  have long : Config.runEntries ≤ s.runList.length := by
    rw [list, List.length_cons, full]
    exact Nat.le_refl 16
  unfold State.makeRoom
  rw [if_pos long, list]

theorem State.channel_forceComplete (q : Fin 4) (c : Fin 512) : (s.forceComplete e).channel q c =
    if q = e.playback then forceRecord e.number (s.channel q c) else s.channel q c := by
  unfold State.channel
  rw [State.forceComplete_channels, Table.get_modify]
  by_cases hq : q = e.playback
  · rw [if_pos hq.symm, if_pos hq, Table.get_map, hq]
  · rw [if_neg (Ne.symm hq), if_neg hq]

/-- What a forced completion makes of each part of the state. -/
theorem State.forceComplete_eq (e : RunEntry) : s.forceComplete e = { s with
    ports := s.ports.map (Port.notify .forced)
    slots := match e.kind with
      | .cue t _ _ => s.slots.set t (s.slot t).toReady
      | _ => s.slots
    channels := s.channels.modify e.playback (Table.map (forceRecord e.number))
    runList := s.runList.filter fun x => x.number ≠ e.number } := by
  obtain ⟨_, _, kind, _, _, _, _⟩ := e
  cases kind <;> rfl

theorem State.slot_forceComplete (i : Fin 32) : (s.forceComplete e).slot i = match e.kind with
    | .cue t _ _ => if i = t then (s.slot i).toReady else s.slot i
    | _ => s.slot i := by
  rw [State.forceComplete_eq]
  rcases e.kind with ⟨j, _, _⟩ | _ | _ | _
  case cue =>
    show (s.setSlot j (s.slot j).toReady).slot i = if i = j then (s.slot i).toReady else s.slot i
    rw [State.slot_setSlot]
    by_cases hi : i = j
    · rw [if_pos hi.symm, if_pos hi, hi]
    · rw [if_neg (Ne.symm hi), if_neg hi]
  all_goals rfl

/-- Settles O35: a full list is `State.makeRoom_full`, and the rest says what a forced completion does to each part. -/
theorem fullRunListForcesItsOldest : Obligations.FullRunListForcesItsOldest := by
  refine fun s legal => ⟨State.makeRoom_of_room, fun e rest list full => ?_⟩
  rw [State.makeRoom_full list full]
  refine ⟨?_, fun q c => ?_, State.slot_forceComplete, fun l => ?_, ?_⟩
  · have others : ∀ x ∈ rest, x.number ≠ e.number := by
      have once := legal.numbers
      rw [list, List.map_cons, List.nodup_cons] at once
      exact fun x hx same => once.1 (List.mem_map.2 ⟨x, hx, same⟩)
    rw [State.forceComplete_runList, list, List.filter_cons_of_neg (by simp)]
    exact List.filter_eq_self.2 fun x hx => by simpa using others x hx
  · rw [State.channel_forceComplete]
    rcases ho : (s.channel q c).own with _ | o
    · simp only [forceRecord, ho, ite_self]
    · simp only [forceRecord, ho, ite_and]
  · rw [State.forceComplete_eq]
    exact Ports.get_map (Port.notify .forced) s.ports l
  · rw [State.forceComplete_eq]

/-! ### Starts of a kind without a follow (R28, R51) -/

/-- Where every entry has a reason to stand the test for removal changes nothing. -/
theorem State.testLeaveBorn_of_stays (stays : ∀ e ∈ s.runList, e.stays firing = true) : s.testLeaveBorn firing b = s := by
  obtain h | ⟨e, he, done, -⟩ := s.testLeaveBorn_cases firing b
  · exact h
  · rw [RunEntry.done_eq, stays e (s.born?_eq_some he).1] at done
    cases done

section
variable {kind : EntryKind} {who : StartedBy} {takes : List Take}

/-- A start that takes a channel tests its new entry with every other. -/
theorem Started.runList_standing (h : Started firing kind p who takes s v) (some_take : takes ≠ []) :
    v.runList = v.standing firing (s.runList ++ [s.newEntry kind p who]) := by
  rw [h.runList, State.standing_eq]
  exact State.kept_congr fun x _ => by simp [List.isEmpty_eq_false_iff.2 some_take]

/-- A plain start with room that takes a channel is the start itself: its last test for removal finds nothing to remove. -/
theorem State.plainStart_started (hs : s.OwnersLegal []) (room : s.runList.length < 16) (once : (takes.map (·.channel)).Nodup)
    (some_take : takes ≠ []) : Started [] kind p who takes s (s.plainStart kind p who takes) := by
  have started := State.start_started (kind := kind) (p := p) (who := who) hs room once
  have same : s.plainStart kind p who takes = s.start [] kind p who takes := by
    refine State.testLeaveBorn_of_stays fun e he => ?_
    rw [started.runList_standing some_take] at he
    exact (List.mem_filter.1 he).2
  rw [same]
  exact started

/-- A new entry that names no slot leaves the slots to the entries listed before it. -/
theorem Started.slotFollows (h : Started firing kind p who takes s v) (legal : s.RunListLegal) (room : s.runList.length < 16)
    (plain : kind.slot? = none) (i : Fin 32) : SlotFollows s s.runList v i := by
  have created := State.createEntry_runListLegal legal room kind p who
  obtain ⟨left, stood⟩ := h.leaves.slotFollows created.births_nodup i
  have same : (∃ x ∈ (s.createEntry kind p who).runList, (∃ cue f, x.kind = .cue i cue f) ∧
      x.birth ∉ v.runList.map (·.birth)) ↔
      ∃ x ∈ s.runList, (∃ cue f, x.kind = .cue i cue f) ∧ x.birth ∉ v.runList.map (·.birth) := by
    rw [State.createEntry_runList]
    simp only [List.mem_append, List.mem_singleton, or_and_right, exists_or, exists_eq_left]
    refine or_iff_left ?_
    rintro ⟨names, -⟩
    rw [← EntryKind.slot?_eq_some] at names
    exact absurd (plain.symm.trans names) nofun
  exact ⟨fun hl => left (same.2 hl), fun hn => stood (mt same.1 hn)⟩

theorem State.plainStart_playbacks : (s.plainStart kind p who takes).playbacks = s.playbacks := by
  unfold State.plainStart
  rw [State.testLeaveBorn_playbacks, State.playbacks_start]

theorem flatTake_ownership (tenths : Nat) (c : Fin 512) (target : Nat) (n : Fin 16) (level : Nat) :
    (flatTake tenths c target).ownership n level = ⟨n, .fading, level, target, 0, tenths * 1000⟩ := by
  unfold Take.ownership flatTake
  by_cases up : level ≤ target <;> simp [up, Config.puPerTenth]

end

/-! ### BACK (R68, R69) -/

/-- The playback a taken BACK leaves: its hold flag clear, its top entry popped, the prior cue current and recorded as an echo. -/
def Playback.wentBack (x : Playback) (d : Desk) (top : RestoreEntry) (rest : List RestoreEntry) : Playback :=
  { x with held := false, stack := rest, currentCue := top.priorCue, echo := some ⟨.back, top.priorCue, .desk d⟩,
           echoTimer := some 2000 }

section
variable {d : Desk} {top : RestoreEntry} {rest : List RestoreEntry}

theorem State.takeBack_eq : s.takeBack d p top rest =
    (s.setPlayback p ((s.playback p).wentBack d top rest)).plainStart (.back top.priorCue top.pairs) p (.desk d)
      (top.pairs.map fun x => flatTake (s.rig.playbacks.get p).backTime x.channel x.level) := rfl

/-- A BACK taken with room in the run list is a start in the state its first steps leave. -/
theorem State.EngineLegal.takeBack_started (hs : s.EngineLegal) (room : s.runList.length < 16)
    (stack : (s.playback p).stack = top :: rest) (some_pair : top.pairs ≠ []) :
    Started [] (.back top.priorCue top.pairs) p (.desk d)
      (top.pairs.map fun x => flatTake (s.rig.playbacks.get p).backTime x.channel x.level)
      (s.setPlayback p ((s.playback p).wentBack d top rest)) (s.takeBack d p top rest) := by
  have owners : (s.setPlayback p ((s.playback p).wentBack d top rest)).OwnersLegal [] :=
    (State.engineLegal_iff_sound.1 hs).owners.of_same rfl rfl rfl
  rw [State.takeBack_eq]
  refine State.plainStart_started owners room ?_ (by simpa using some_pair)
  rw [flatTake_channels]
  exact hs.pairs_once p top (stack ▸ List.mem_cons_self)

end

/-! ### The checks of the start requests (R33, R35, R38, R39, R68) -/

section
variable (s)

theorem settle_refuseFirst_cons (l : Link) (b : Bool) (c : ResultCode) (rest : List (Bool × ResultCode)) (taken : Verdict) :
    settle l (refuseFirst ((b, c) :: rest) s taken) = if b then s.answered l c else settle l (refuseFirst rest s taken) := by
  rw [refuseFirst_cons, settle_ite, settle_answer]

theorem settle_refuseFirst_lead {l : Link} {d : Desk} (hd : deskOf l = some d) (rest : List (Bool × ResultCode))
    (taken : Verdict) : settle l (refuseFirst ((decide (s.role l ≠ .lead), .notLead) :: rest) s taken) =
      if s.lead ≠ some d then s.answered l .notLead else settle l (refuseFirst rest s taken) := by
  rw [settle_refuseFirst_cons]
  simp only [decide_eq_true_eq, ne_eq, s.role_lead_iff hd]

theorem settle_startChecks (l : Link) (taken : Verdict) : settle l (refuseFirst (startChecks s) s taken) =
    if s.frozen then s.answered l .heldByLine else if s.rebuild.isSome then s.answered l .bankBusy else settle l taken := by
  unfold startChecks
  rw [settle_refuseFirst_cons, settle_refuseFirst_cons]
  rfl

end

/-- Settles O29: the checks in the order of R68, and the start that a taken BACK is (`State.EngineLegal.takeBack_started`). -/
theorem backFollowsItsRule : Obligations.BackFollowsItsRule := by
  refine ⟨fun s l tag x hh => ?_, fun s d p top rest hs room stack some_pair => ?_, fun s d p top rest => rfl⟩
  · refine congrArg Host.Outcome.next ((requestRow_atHead _ hh).trans ?_)
    rcases hd : deskOf l with _ | d
    · simp only [decideBack, readByte, hd, settle_answer]
    simp only [decideBack, readByte, hd]
    rcases numbered 4 x.toNat with _ | p
    · rfl
    simp only [List.cons_append, List.nil_append, settle_refuseFirst_cons, settle_refuseFirst_lead s hd, settle_startChecks]
    rcases (s.playback p).stack with _ | ⟨top, rest⟩ <;> rfl
  · have started := hs.takeBack_started (d := d) room stack some_pair
    have playbacks : (s.takeBack d p top rest).playbacks = (s.setPlayback p ((s.playback p).wentBack d top rest)).playbacks :=
      State.plainStart_playbacks
    have playback (q : Fin 4) : (s.takeBack d p top rest).playback q =
        if p = q then (s.playback p).wentBack d top rest else s.playback q := by
      rw [← State.playback_setPlayback]
      exact congrArg (Table.get · q) playbacks
    refine ⟨?_, fun q hq => ?_, fun x hx => ?_, fun c hc => started.others p c (.inr ?_),
      fun q c hq => started.others q c (.inl hq), started.runList_standing (by simpa using some_pair),
      started.slotFollows (hs.runList.of_same rfl rfl) room rfl, ?_⟩
    · rw [playback, if_pos rfl]
      rfl
    · rw [playback, if_neg (Ne.symm hq)]
    · have taken := started.taken _ (List.mem_map_of_mem hx)
      rw [flatTake_ownership] at taken
      exact taken
    · rwa [flatTake_channels]
    · rw [started.same]
      rfl

end Sys2Proof.Machine
end

section
namespace Sys2Proof.Machine

variable (s : State)

/-! ### GO (R33, R35) -/

theorem badCue_iff (cue : Nat) : badCue cue = true ↔ cue = 0 ∨ 9999 < cue := by
  unfold badCue
  rw [Bool.or_eq_true, decide_eq_true_eq, decide_eq_true_eq]
  rfl

/-- Settles O25: the fields, then the checks in the order of R35, then the state of the slot. -/
theorem goFollowsItsChecks : Obligations.GoFollowsItsChecks := by
  intro s l tag x y c1 c0 hh cue
  refine congrArg Host.Outcome.next ((requestRow_atHead _ hh).trans ?_)
  rcases hd : deskOf l with _ | d
  · simp only [decideGo, readGo, hd, settle_answer]
  simp only [decideGo, readGo, hd]
  rcases numbered 4 x.toNat with _ | p
  · rfl
  rcases indexed 32 y.toNat with _ | t
  · rfl
  simp only [settle_ite, settle_answer, badCue_iff, List.cons_append, List.nil_append, settle_refuseFirst_cons,
    settle_refuseFirst_lead s hd, settle_startChecks]
  rcases s.slot t with _ | _ | ⟨h, ms⟩ | _
  case ready =>
    simp only [settle_ite, settle_answer, ne_eq, ite_not]
    rfl
  all_goals rfl

/-! ### MANUAL and RELEASE (R38, R39, R72) -/

theorem okOr_tenthsOver (n : Nat) : okOr (tenthsOver n) = if n ≤ 9999 then .ok else .clamped := by
  unfold okOr
  simp only [tenthsOver_iff, ← Nat.not_le, ite_not]

theorem okOr_tenthsOver_or (n m : Nat) :
    okOr (tenthsOver n || tenthsOver m) = if n ≤ 9999 ∧ m ≤ 9999 then .ok else .clamped := by
  have held : (tenthsOver n || tenthsOver m) = true ↔ ¬ (n ≤ 9999 ∧ m ≤ 9999) := by
    rw [Bool.or_eq_true, tenthsOver_iff, tenthsOver_iff]
    omega
  unfold okOr
  simp only [held, ite_not]

theorem namesTwice_iff {n : Nat} {l : List (Fin n)} : namesTwice l = true ↔ ¬ l.Nodup := by
  rw [← namesTwice_eq_false, Bool.not_eq_false]

/-- The channels a RELEASE takes, in ascending order (R39). -/
theorem State.releasable_eq (p : Fin 4) :
    s.releasable p = (List.finRange 512).filter fun c => 0 < (s.channel p c).level ∨ (s.channel p c).own.isSome := by
  unfold State.releasable
  rw [show (List.ofFn fun c : Fin 512 => c) = List.finRange 512 from List.ofFn_id 512]
  exact List.filter_congr fun c _ => by simp

theorem State.takeRelease_eq (d : Desk) (p : Fin 4) :
    let v := s.setPlayback p { s.playback p with stack := [], currentCue := 0 }
    s.takeRelease d p = if s.releasable p = [] then v
      else v.plainStart .release p (.desk d)
        ((s.releasable p).map fun c => flatTake (s.rig.playbacks.get p).releaseTime c 0) := by
  have same : (s.modPlayback p fun x => { x with stack := [], currentCue := 0 }).releasable p = s.releasable p :=
    (State.releasable_eq _ p).trans (s.releasable_eq p).symm
  unfold State.takeRelease
  dsimp only
  rw [same]
  cases s.releasable p <;> rfl

/-- Settles O30: the checks in order, then the starts of R38 and R39. -/
theorem manualAndReleaseFollowTheirRules : Obligations.ManualAndReleaseFollowTheirRules := by
  refine ⟨fun s l tag body f hf hh => ?_, fun s l tag x hh => ?_⟩ <;>
    refine congrArg Host.Outcome.next ((requestRow_atHead _ hh).trans ?_)
  · rcases hd : deskOf l with _ | d
    · simp only [decideManual, hf, hd, settle_answer]
    simp only [decideManual, hf, hd]
    rcases numbered 4 f.playback with _ | p
    · rfl
    rcases checkPairs f.pairs with _ | pairs
    · rfl
    simp only [settle_ite, settle_answer, List.length_eq_zero_iff, List.cons_append, List.nil_append, settle_refuseFirst_cons,
      settle_refuseFirst_lead s hd, settle_startChecks, namesTwice_iff, okOr_tenthsOver]
    rfl
  · rcases hd : deskOf l with _ | d
    · simp only [decideRelease, readByte, hd, settle_answer]
    simp only [decideRelease, readByte, hd]
    rcases numbered 4 x.toNat with _ | p
    · rfl
    simp only [List.cons_append, List.nil_append, settle_refuseFirst_lead s hd, settle_startChecks, settle_answer,
      State.takeRelease_eq, s.releasable_eq p, apply_ite (State.answered · l .ok)]

/-! ### HOLD, RESUME, RATE and PB_LEVEL (R40, R41, R42) -/

theorem State.setHolds_eq (ps : List (Fin 4)) (b : Bool) : s.setHolds ps b =
    { s with playbacks := Table.tabulate fun p => if p ∈ ps then { s.playback p with held := b } else s.playback p } := by
  induction ps generalizing s with
  | nil =>
    have stands : s.playbacks = Table.tabulate fun p => s.playback p := Table.ext_get fun p => by rw [Table.get_tabulate]; rfl
    simp only [List.not_mem_nil, if_false, ← stands]
    rfl
  | cons q ps ih =>
    have first : s.setHolds (q :: ps) b = (s.modPlayback q fun x => { x with held := b }).setHolds ps b := rfl
    rw [first, ih]
    show State.mk .. = State.mk ..
    congr 1
    refine Table.ext_get fun p => ?_
    rw [Table.get_tabulate, Table.get_tabulate, State.playback_modPlayback]
    by_cases hq : q = p
    · subst hq
      by_cases hp : q ∈ ps <;> simp [hp]
    · simp [hq, Ne.symm hq]

theorem mem_namedPlaybacks {k : Nat} {ps : List (Fin 4)} (h : namedPlaybacks k = some ps) (p : Fin 4) :
    p ∈ ps ↔ k = 0 ∨ k = p.val + 1 := by
  unfold namedPlaybacks at h
  split at h
  · next hk =>
    cases h
    simp only [hk, true_or, iff_true]
    revert p
    decide
  · next hk =>
    obtain ⟨q, hq, rfl⟩ := Option.map_eq_some_iff.1 h
    rw [numbered_eq_some] at hq
    rw [List.mem_singleton, Fin.ext_iff]
    omega

theorem namedPlaybacks_eq_none {k : Nat} : namedPlaybacks k = none ↔ 4 < k := by
  unfold namedPlaybacks
  split
  · next hk => simp [hk]
  · rw [Option.map_eq_none_iff, numbered_eq_none]
    omega

theorem okOr_clampTo {lo hi n : Nat} (range : lo ≤ hi) :
    okOr (decide (clampTo lo hi n ≠ n)) = if lo ≤ n ∧ n ≤ hi then .ok else .clamped := by
  have stands : clampTo lo hi n ≠ n ↔ ¬ (lo ≤ n ∧ n ≤ hi) := by
    unfold clampTo
    omega
  unfold okOr
  simp only [decide_eq_true_eq, stands, ite_not]

/-- HOLD and RESUME once the role and the byte are read (R40). -/
theorem settle_decideHolds {l : Link} (x : Byte) (b : Bool) : settle l (decideHolds b l [x] (s.role l) s) =
    match deskOf l with
    | none => s.answered l .role
    | some d =>
      if 4 < x.toNat then s.answered l .badField
      else if s.lead ≠ some d then s.answered l .notLead
      else State.answered
        { s with playbacks := Table.tabulate fun p =>
          if x = 0 ∨ x.toNat = p.val + 1 then { s.playback p with held := b } else s.playback p } l .ok := by
  rcases hd : deskOf l with _ | d
  · simp only [decideHolds, readByte, hd, settle_answer]
  simp only [decideHolds, readByte, hd]
  rcases named : namedPlaybacks x.toNat with _ | ps
  · rw [if_pos (namedPlaybacks_eq_none.1 named), settle_answer]
  · have inRange : ¬ 4 < x.toNat := fun h => by rw [namedPlaybacks_eq_none.2 h] at named; cases named
    have zero : x = 0 ↔ x.toNat = 0 := BitVec.toNat_inj.symm
    simp only [if_neg inRange, settle_ite, settle_answer, ne_eq, s.role_lead_iff hd, State.setHolds_eq,
      mem_namedPlaybacks named, zero]

/-- Settles O31: each row's fields, role and write. -/
theorem steeringRequestsFollowTheirRules : Obligations.SteeringRequestsFollowTheirRules := by
  refine ⟨fun s l tag x => ⟨fun hh => ?_, fun hh => ?_⟩, fun s l tag x hi lo => ⟨fun hh => ?_, fun hh => ?_⟩⟩ <;>
    refine congrArg Host.Outcome.next ((requestRow_atHead _ hh).trans ?_)
  · exact settle_decideHolds s x true
  · exact settle_decideHolds s x false
  · rcases hd : deskOf l with _ | d
    · simp only [decideRate, readByteWord, hd, settle_answer]
    simp only [decideRate, readByteWord, hd]
    rcases numbered 4 x.toNat with _ | p
    · rfl
    simp only [settle_ite, settle_answer, ne_eq, s.role_lead_iff hd, okOr_clampTo (show 1 ≤ 400 by decide)]
    rfl
  · rcases hd : deskOf l with _ | d
    · simp only [decidePbLevel, readByteWord, hd, settle_answer]
    simp only [decidePbLevel, readByteWord, hd]
    rcases numbered 4 x.toNat with _ | p
    · rfl
    simp only [settle_ite, settle_answer, ne_eq, s.role_lead_iff hd]
    rfl

/-! ### The echo and flash timers (R34, R116) -/

/-- Settles O34: the expiry of a flash timer, park by park. -/
theorem echoAndFlashTimersExpire : Obligations.EchoAndFlashTimersExpire := by
  refine fun s running => ⟨fun p => congrArg Host.Outcome.next (whileRunning_running running), fun c => ?_⟩
  refine congrArg Host.Outcome.next ((whileRunning_running running).trans ?_)
  unfold State.flashExpiry State.modPark State.setParks
  congr 1
  refine List.map_congr_left fun x _ => ?_
  obtain ⟨circuit, levelA, flash, owner⟩ := x
  rcases flash with _ | ⟨levelB, onTime, offTime, phase, timer⟩
  · exact ite_self _
  · cases phase <;> rfl

/-! ### PLAYBACK_SETUP, RACK_SETUP and LOOK_SET (R43, R134, R150) -/

theorem insertLook_perm (e : LookEntry) (l : List LookEntry) : (insertLook e l).Perm (e :: l) := by
  induction l with
  | nil => exact .refl _
  | cons x rest ih =>
    unfold insertLook
    split
    · exact .refl _
    · exact (ih.cons x).trans (.swap e x rest)

theorem sortLook_perm (es : List LookEntry) : (sortLook es).Perm es := by
  induction es with
  | nil => exact .refl _
  | cons e rest ih => exact (insertLook_perm e (sortLook rest)).trans (ih.cons e)

theorem insertLook_ascending {e : LookEntry} {l : List LookEntry} (ascending : l.Pairwise fun a b => a.circuit < b.circuit)
    (new : ∀ x ∈ l, x.circuit ≠ e.circuit) : (insertLook e l).Pairwise fun a b => a.circuit < b.circuit := by
  induction l with
  | nil => exact List.pairwise_singleton _ _
  | cons x rest ih =>
    obtain ⟨first, ascending'⟩ := List.pairwise_cons.1 ascending
    unfold insertLook
    split
    · next before =>
      refine List.pairwise_cons.2 ⟨fun y hy => ?_, ascending⟩
      rcases List.mem_cons.1 hy with rfl | hy
      · exact before
      · exact before.trans (first y hy)
    · next after =>
      refine List.pairwise_cons.2 ⟨fun y hy => ?_, ih ascending' fun y hy => new y (List.mem_cons_of_mem x hy)⟩
      rcases List.mem_cons.1 ((insertLook_perm e rest).subset hy) with rfl | hy
      · exact lt_of_le_of_ne (not_lt.1 after) (new x List.mem_cons_self)
      · exact first y hy

theorem sortLook_ascending {es : List LookEntry} (once : (es.map (·.circuit)).Nodup) :
    (sortLook es).Pairwise fun a b => a.circuit < b.circuit := by
  induction es with
  | nil => exact .nil
  | cons e rest ih =>
    rw [List.map_cons, List.nodup_cons] at once
    obtain ⟨new, once⟩ := once
    refine insertLook_ascending (ih once) fun x hx same => new ?_
    exact List.mem_map.2 ⟨x, (sortLook_perm rest).subset hx, same⟩

theorem circuitTwice_iff (es : List LookEntry) : circuitTwice es = true ↔ ¬ (es.map (·.circuit)).Nodup := by
  induction es with
  | nil => simp [circuitTwice]
  | cons e rest ih =>
    simp only [circuitTwice, Bool.or_eq_true, ih, List.map_cons, List.nodup_cons, not_and_or, not_not, List.any_eq_true,
      List.mem_map, decide_eq_true_eq]

theorem savingRig_iff : s.savingRig = true ↔ s.saving.map (·.cls) = some .rig := decide_eq_true_iff

/-- A resolution byte is read as 8 or 16 bits and as nothing else (R150). -/
theorem resolutionValue_byte (res : Byte) : resolutionValue res.toNat =
    if res ≠ 8 ∧ res ≠ 16 then none else some (if res = 8 then .bits8 else .bits16) := by
  have eight : res = 8 ↔ res.toNat = 8 := BitVec.toNat_inj.symm
  have sixteen : res = 16 ↔ res.toNat = 16 := BitVec.toNat_inj.symm
  unfold resolutionValue
  rw [if_congr eight.symm rfl rfl, if_congr sixteen.symm rfl rfl]
  by_cases h8 : res = 8
  · rw [if_pos h8, if_neg (fun h => h.1 h8), if_pos h8]
  · by_cases h16 : res = 16
    · rw [if_neg h8, if_pos h16, if_neg (fun h => h.2 h16), if_neg h8]
    · rw [if_neg h8, if_neg h16, if_pos ⟨h8, h16⟩]

/-- Settles O44: each row's fields, role, save and write; the order of a look is `sortLook_ascending`. -/
theorem setupRequestsFollowTheirRules : Obligations.SetupRequestsFollowTheirRules := by
  refine ⟨fun s l tag x b1 b0 r1 r0 hh => ?_, fun s l tag x res ms hh => ?_, fun s l tag body f hf hh => ?_,
    fun es once => ⟨sortLook_ascending once, sortLook_perm es⟩⟩ <;>
    refine congrArg Host.Outcome.next ((requestRow_atHead _ hh).trans ?_)
  · rcases hd : deskOf l with _ | d
    · simp only [decidePlaybackSetup, readPlaybackSetup, hd, settle_answer]
    simp only [decidePlaybackSetup, readPlaybackSetup, hd]
    rcases numbered 4 x.toNat with _ | p
    · rfl
    simp only [settle_refuseFirst_lead s hd, settle_refuseFirst_cons, savingRig_iff, refuseFirst_nil, settle_answer,
      okOr_tenthsOver_or]
    rfl
  · rcases hd : deskOf l with _ | d
    · simp only [decideRackSetup, readBytes3, hd, settle_answer]
    simp only [decideRackSetup, readBytes3, hd, resolutionValue_byte]
    rcases numbered 3 x.toNat with _ | k
    · rfl
    by_cases bad : res ≠ 8 ∧ res ≠ 16
    · simp only [if_pos bad, settle_answer]
    · simp only [if_neg bad, settle_refuseFirst_lead s hd, settle_refuseFirst_cons, savingRig_iff, refuseFirst_nil,
        settle_answer, okOr_clampTo (show 20 ≤ 50 by decide)]
      rfl
  · rcases hd : deskOf l with _ | d
    · simp only [decideLookSet, hf, hd, settle_answer]
    simp only [decideLookSet, hf, hd]
    rcases numbered 4 f.look with _ | k
    · rfl
    rcases checkEntries f.entries with _ | es
    · rfl
    simp only [settle_refuseFirst_cons, settle_refuseFirst_lead s hd, savingRig_iff, circuitTwice_iff, decide_eq_true_eq,
      refuseFirst_nil, settle_answer]
    rfl

end Sys2Proof.Machine
end

section
namespace Sys2Proof.Machine

variable {s t u v : State} {firing : List Nat} {e : RunEntry} {b : Nat} {bs : List Nat}

/-! ### One visit of a fade tick (R31, R32, R58) -/

/-- The clock to which a tick advances an entry. -/
def State.nextClock (s : State) (e : RunEntry) : Nat := e.clock + (s.playback e.playback).rate

/-- An entry advanced by a tick. -/
def State.advanced (s : State) (e : RunEntry) : RunEntry := { e with clock := s.nextClock e }

/-- The state once a visit has advanced entry `e`, its evaluation to come. -/
def State.advance (s : State) (e : RunEntry) : State :=
  s.modEntry e.number fun x => { x with clock := x.clock + (s.playback e.playback).rate }

/-- The state once a visit has advanced and evaluated entry `e`, its follow not yet tested. -/
def State.visited (s : State) (e : RunEntry) : State := (s.advance e).evaluate [] (s.advanced e).number

theorem State.visit_unborn (h : s.born? b = none) : s.visit b = s := by
  unfold State.visit
  rw [h]

theorem State.visit_stopped (h : s.born? b = some e) (stopped : s.clockRuns e.playback = false) : s.visit b = s := by
  unfold State.visit
  simp [h, stopped]

theorem State.visit_all_stopped (stopped : ∀ p, s.clockRuns p = false) (b : Nat) : s.visit b = s := by
  rcases h : s.born? b with _ | e
  · exact State.visit_unborn h
  · exact State.visit_stopped h (stopped e.playback)

theorem State.visit_runs (h : s.born? b = some e) (runs : s.clockRuns e.playback = true) :
    s.visit b = State.testFollow 32 [] [] b (s.visited e) := by
  unfold State.visit
  simp only [h, runs, if_true]
  rfl

/-- What advancing and evaluating entry `e` makes of a state. -/
structure Visited (e : RunEntry) (s u : State) : Prop where
  records : ∀ p c, u.channel p c = evalRecord e.number (s.nextClock e) (s.channel p c)
  runList : u.runList =
    u.standing [] (s.runList.map fun x => if x.birth = e.birth then { x with clock := s.nextClock e } else x)
  fewer : ∀ p n, u.ownedOn p n ≤ s.ownedOn p n
  leaves : Leaves s u
  owners : u.OwnersLegal []
  same : SameButEntries s u

theorem State.OwnersLegal.stays (hs : s.OwnersLegal firing) : ∀ e ∈ s.runList, e.stays firing = true :=
  fun _ he => RunEntry.stays_of_busy hs he

theorem State.OwnersLegal.advance (hs : s.OwnersLegal []) (e : RunEntry) : (s.advance e).OwnersLegal [] :=
  hs.modEntry (fun _ => rfl) (fun _ => rfl) fun _ _ _ => .inl rfl

theorem State.advance_runList (hs : s.RunListLegal) (he : e ∈ s.runList) : (s.advance e).runList =
    s.runList.map fun x => if x.birth = e.birth then { x with clock := s.nextClock e } else x := by
  refine List.map_congr_left fun x hx => ?_
  by_cases same : x = e
  · rw [same, if_pos rfl, if_pos rfl]
    rfl
  · rw [if_neg fun h => same (List.inj_on_of_nodup_map hs.numbers hx he h),
      if_neg fun h => same (List.inj_on_of_nodup_map hs.births_nodup hx he h)]

theorem State.advance_leaves (e : RunEntry) : Leaves s (s.advance e) := .of_same (State.tags_modEntry _ fun _ => rfl) rfl

theorem State.OwnersLegal.visited (hs : s.OwnersLegal []) (he : e ∈ s.runList) : Visited e s (s.visited e) := by
  have advance := hs.advance e
  have listed : s.advanced e ∈ (s.advance e).runList :=
    State.advance_runList hs.runList he ▸ List.mem_map.2 ⟨e, he, if_pos rfl⟩
  have owners : (s.visited e).OwnersLegal [] := advance.evaluate (e := s.advanced e) listed
  have kept : (s.visited e).runList = _ := State.evaluate_runList advance.counted listed
  refine ⟨State.channel_evaluate advance.counted listed, ?_, fun p n => ?_,
    (State.advance_leaves e).trans (State.evaluate_leaves advance.counted listed), owners,
    SameButEntries.trans (t := s.advance e) rfl (State.evaluate_same advance.counted listed)⟩
  · rw [← State.advance_runList hs.runList he, State.standing_eq]
    refine kept.trans (State.kept_congr fun x hx => Bool.eq_iff_iff.2 ⟨fun keep => ?_, fun stays => ?_⟩)
    · exact owners.stays _ (kept ▸ State.mem_kept.2 ⟨x, hx, rfl, keep⟩)
    · exact (congrArg _ stays).trans (Bool.or_true _)
  · exact Nat.le.intro (State.ownedOn_evaluate advance.counted listed p n)

namespace Visited
variable (h : Visited e s u)
include h

theorem clockRuns (p : Fin 4) : u.clockRuns p = s.clockRuns p := by
  rw [h.same]
  rfl

theorem nextClock (x : RunEntry) : u.nextClock x = s.nextClock x := by
  rw [h.same]
  rfl

/-- Where the entries after a visit come from. -/
theorem mem {x : RunEntry} (hx : x ∈ u.runList) : ∃ y ∈ s.runList,
    x = RunEntry.recounted u (if y.birth = e.birth then { y with clock := s.nextClock e } else y) := by
  rw [h.runList, State.standing_eq] at hx
  obtain ⟨_, advanced, rfl, -⟩ := State.mem_kept.1 hx
  obtain ⟨y, hy, rfl⟩ := List.mem_map.1 advanced
  exact ⟨y, hy, rfl⟩

/-- An entry keeps its number, playback and follow through a visit, and every other entry its clock. -/
theorem origin {x : RunEntry} (hx : x ∈ u.runList) : ∃ y ∈ s.runList, x.number = y.number ∧ x.birth = y.birth ∧
    x.playback = y.playback ∧ x.follow = y.follow ∧ (y.birth ≠ e.birth → x.clock = y.clock) := by
  obtain ⟨y, hy, rfl⟩ := h.mem hx
  refine ⟨y, hy, ?_⟩
  by_cases same : y.birth = e.birth
  · rw [if_pos same]
    exact ⟨rfl, rfl, rfl, rfl, fun hn => absurd same hn⟩
  · rw [if_neg same]
    exact ⟨rfl, rfl, rfl, rfl, fun _ => rfl⟩

end Visited

/-- With no follow pending in a legal engine, the test of a follow changes nothing. -/
theorem State.OwnersLegal.testFollow_eq (hs : s.OwnersLegal []) (plain : ∀ e ∈ s.runList, e.follow = none) (fuel : Nat)
    (chain : List (Fin 32)) : State.testFollow fuel chain [] b s = s := by
  have none_pending {e : RunEntry} {f : EntryFollow} (he : s.born? b = some e) (hf : e.follow = some f) : False := by
    rw [plain e (s.born?_eq_some he).1] at hf
    cases hf
  obtain ⟨-, h⟩ | ⟨_, -, -, h⟩ | ⟨_, _, he, hf, -⟩ | ⟨_, _, _, _, he, hf, -⟩ := s.testFollow_cases fuel chain [] b
  · exact h
  · rw [h, State.testLeaveBorn_of_stays hs.stays]
  · exact (none_pending he hf).elim
  · exact (none_pending he hf).elim

/-- A visit with no follow pending: it passes over what has left or stands still, or it advances and evaluates its entry. -/
theorem State.OwnersLegal.visit_cases (hs : s.OwnersLegal []) (plain : ∀ e ∈ s.runList, e.follow = none) (b : Nat) :
    ((∀ e ∈ s.runList, e.birth = b → s.clockRuns e.playback = false) ∧ s.visit b = s) ∨
    ∃ e ∈ s.runList, e.birth = b ∧ s.clockRuns e.playback = true ∧ Visited e s (s.visit b) := by
  rcases hb : s.born? b with _ | e
  · exact .inl ⟨fun e he h => absurd h (State.born?_eq_none hb e he), State.visit_unborn hb⟩
  obtain ⟨he, rfl⟩ := s.born?_eq_some hb
  rcases runs : s.clockRuns e.playback
  · refine .inl ⟨fun x hx h => ?_, State.visit_stopped hb runs⟩
    rw [List.inj_on_of_nodup_map hs.runList.births_nodup hx he h, runs]
  · have visited := hs.visited he
    have plain' : ∀ x ∈ (s.visited e).runList, x.follow = none := fun x hx => by
      obtain ⟨y, hy, -, -, -, follow, -⟩ := visited.origin hx
      rw [follow, plain y hy]
    rw [State.visit_runs hb runs, visited.owners.testFollow_eq plain']
    exact .inr ⟨e, he, rfl, runs, visited⟩

/-! ### A fade tick with no follow pending (R26, R31, R32) -/

/-- An entry as the visits to the births `bs` set its clock. -/
def State.ticked (s : State) (bs : List Nat) (e : RunEntry) : RunEntry :=
  if e.birth ∈ bs ∧ s.clockRuns e.playback = true then s.advanced e else e

/-- What visits to the births `bs` make of a state with no follow pending. -/
structure Ticked (bs : List Nat) (s t : State) : Prop where
  idle : ∀ p c, (s.channel p c).own = none → t.channel p c = s.channel p c
  records : ∀ e ∈ s.runList, ∀ c o, (s.channel e.playback c).own = some o → o.owner = e.number →
    t.channel e.playback c =
      if e.birth ∈ bs ∧ s.clockRuns e.playback = true then evalOwned o (s.nextClock e) else s.channel e.playback c
  runList : t.runList = t.standing [] (s.runList.map (s.ticked bs))
  fewer : ∀ p n, t.ownedOn p n ≤ s.ownedOn p n
  leaves : Leaves s t
  same : SameButEntries s t

theorem Ticked.nil (hs : s.OwnersLegal []) : Ticked [] s s where
  idle _ _ _ := rfl
  records _ _ _ _ _ _ := (if_neg (by simp)).symm
  runList := by
    have still : s.runList.map (s.ticked []) = s.runList :=
      (List.map_congr_left fun e _ => if_neg (by simp)).trans (List.map_id _)
    rw [still, State.standing_eq, hs.counted.kept_self hs.stays]
  fewer _ _ := Nat.le_refl _
  leaves := .refl s
  same := .refl s

/-- A birth that no running entry has may be visited as well. -/
theorem Ticked.skip (h : Ticked bs s t) (stopped : ∀ e ∈ s.runList, e.birth = b → s.clockRuns e.playback = false) :
    Ticked (b :: bs) s t := by
  have same (e : RunEntry) (he : e ∈ s.runList) :
      (e.birth ∈ b :: bs ∧ s.clockRuns e.playback = true) ↔ e.birth ∈ bs ∧ s.clockRuns e.playback = true := by
    rw [List.mem_cons]
    refine and_congr_left fun runs => or_iff_right fun hb => ?_
    rw [stopped e he hb] at runs
    cases runs
  refine { h with records := fun e he c o ho hn => ?_, runList := ?_ }
  · rw [h.records e he c o ho hn]
    exact (if_congr (same e he) rfl rfl).symm
  · rw [h.runList]
    congr 1
    exact List.map_congr_left fun e he => (if_congr (same e he) rfl rfl).symm

theorem owner_of_evalOwned {o o' : Ownership} {c : Nat} (h : (evalOwned o c).own = some o') : o'.owner = o.owner := by
  obtain ⟨-, e⟩ | ⟨-, -, e⟩ | ⟨-, e⟩ := evalOwned_cases o c <;> rw [e] at h <;> cases h <;> rfl

/-- A change of clocks made before or after a recount and a test that reads none. -/
theorem State.map_standing {f : RunEntry → RunEntry} (hf : ∀ x, f (x.recounted u) = (f x).recounted u)
    (stays : ∀ x, (f x).stays firing = x.stays firing) (l : List RunEntry) :
    (u.standing firing l).map f = u.standing firing (l.map f) := by
  have recount : f ∘ RunEntry.recounted u = RunEntry.recounted u ∘ f := funext hf
  have test : RunEntry.stays firing ∘ f = RunEntry.stays firing := funext stays
  unfold State.standing
  rw [List.map_map, ← recount, ← List.map_map, List.filter_map (f := f), test]

section
variable (hs : s.OwnersLegal []) (he : e ∈ s.runList) (visit : Visited e s u) (rest : Ticked bs u t)
include hs he visit rest

/-- The records of the entry just visited stand through the later visits. -/
theorem Ticked.record_of_visited (new : e.birth ∉ bs) {c : Fin 512} {o : Ownership} (ho : (s.channel e.playback c).own = some o)
    (hn : o.owner = e.number) : t.channel e.playback c = evalOwned o (s.nextClock e) := by
  have now : u.channel e.playback c = evalOwned o (s.nextClock e) := by
    rw [visit.records, evalRecord, ho]
    exact if_pos hn
  rw [← now]
  rcases ho' : (u.channel e.playback c).own with _ | o'
  · exact rest.idle _ _ ho'
  · obtain ⟨x, hx, number, playback⟩ := visit.owners.owners _ _ _ ho'
    obtain ⟨y, hy, number', birth, -⟩ := visit.origin hx
    rw [now] at ho'
    obtain rfl : y = e := List.inj_on_of_nodup_map hs.runList.numbers hy he
      (number'.symm.trans (number.trans ((owner_of_evalOwned ho').trans hn)))
    rw [← now, ← playback] at ho'
    rw [← playback, rest.records x hx c o' ho' number.symm, if_neg fun h => new (birth ▸ h.1)]

/-- The records of any other entry are not touched by the visit. -/
theorem Ticked.record_of_other {x : RunEntry} (hx : x ∈ s.runList) (other : x.birth ≠ e.birth) {c : Fin 512} {o : Ownership}
    (ho : (s.channel x.playback c).own = some o) (hn : o.owner = x.number) : t.channel x.playback c =
      if x.birth ∈ bs ∧ s.clockRuns x.playback = true then evalOwned o (s.nextClock x) else s.channel x.playback c := by
  have stands : u.channel x.playback c = s.channel x.playback c := by
    rw [visit.records, evalRecord_of_not_owned]
    refine Bool.eq_false_iff.2 fun h => other ?_
    obtain ⟨o', ho', hn'⟩ := ownedBy_iff.1 h
    rw [ho] at ho'
    cases ho'
    rw [List.inj_on_of_nodup_map hs.runList.numbers hx he (hn.symm.trans hn')]
  have ho' := ho
  rw [← stands] at ho'
  obtain ⟨y, hy, number, playback⟩ := visit.owners.owners _ _ _ ho'
  obtain ⟨z, hz, number', birth, playback', -, clock⟩ := visit.origin hy
  obtain rfl : z = x := List.inj_on_of_nodup_map hs.runList.numbers hz hx (number'.symm.trans (number.trans hn))
  have next : u.nextClock y = s.nextClock z := by
    rw [visit.nextClock]
    unfold State.nextClock
    rw [clock other, playback]
  rw [← playback] at ho'
  have later := rest.records y hy c o ho' number.symm
  rwa [playback, birth, visit.clockRuns, next, stands] at later

theorem Ticked.cons (new : e.birth ∉ bs) (runs : s.clockRuns e.playback = true) : Ticked (e.birth :: bs) s t where
  idle p c ho := by
    have stands : u.channel p c = s.channel p c := by
      rw [visit.records, evalRecord, ho]
    rw [← stands] at ho ⊢
    exact rest.idle p c ho
  records x hx c o ho hn := by
    by_cases same : x = e
    · subst same
      rw [if_pos ⟨List.mem_cons_self, runs⟩]
      exact Ticked.record_of_visited hs hx visit rest new ho hn
    · have other : x.birth ≠ e.birth := fun h => same (List.inj_on_of_nodup_map hs.runList.births_nodup hx he h)
      rw [Ticked.record_of_other hs he visit rest hx other ho hn]
      simp only [List.mem_cons, other, false_or]
  runList := by
    have recount (x : RunEntry) : u.ticked bs (x.recounted u) = (u.ticked bs x).recounted u := by
      unfold State.ticked
      show (if x.birth ∈ bs ∧ u.clockRuns x.playback = true then (u.advanced x).recounted u else x.recounted u) = _
      split <;> rfl
    have test (x : RunEntry) : (u.ticked bs x).stays [] = x.stays [] := by
      unfold State.ticked
      split <;> rfl
    have clocks : (s.runList.map fun x => if x.birth = e.birth then { x with clock := s.nextClock e } else x).map (u.ticked bs) =
        s.runList.map (s.ticked (e.birth :: bs)) := by
      rw [List.map_map]
      refine List.map_congr_left fun x hx => ?_
      rw [Function.comp_apply]
      unfold State.ticked
      by_cases same : x.birth = e.birth
      · obtain rfl := List.inj_on_of_nodup_map hs.runList.births_nodup hx he same
        rw [if_pos rfl, if_neg fun h => new h.1, if_pos ⟨List.mem_cons_self, runs⟩]
        rfl
      · rw [if_neg same]
        simp only [List.mem_cons, same, false_or, visit.clockRuns, State.advanced, visit.nextClock]
    rw [rest.runList, visit.runList, State.map_standing recount test, clocks]
    refine State.kept_kept fun x _ => Bool.and_eq_right_iff_imp.2 ?_
    exact RunEntry.stays_mono (rest.fewer x.playback x.number) rfl rfl
  fewer p n := (rest.fewer p n).trans (visit.fewer p n)
  leaves := visit.leaves.trans rest.leaves
  same := visit.same.trans rest.same

end

theorem State.OwnersLegal.ticked (hs : s.OwnersLegal []) (plain : ∀ e ∈ s.runList, e.follow = none) (once : bs.Nodup) :
    Ticked bs s (bs.foldl State.visit s) := by
  induction bs generalizing s with
  | nil => exact .nil hs
  | cons b bs ih =>
    obtain ⟨new, once'⟩ := List.nodup_cons.1 once
    obtain ⟨stopped, h⟩ | ⟨e, he, rfl, runs, visit⟩ := hs.visit_cases plain b
    · rw [List.foldl_cons, h]
      exact (ih hs plain once').skip stopped
    · refine .cons hs he visit (ih visit.owners (fun x hx => ?_) once') new runs
      obtain ⟨y, hy, -, -, -, follow, -⟩ := visit.origin hx
      rw [follow, plain y hy]

/-! ### A whole tick (R26, R29, R32) -/

/-- An entry as a tick from `s` to `t` leaves it: on a running clock advanced, with the channels counted that it still owns. -/
def RunEntry.afterTick (s t : State) (e : RunEntry) : RunEntry :=
  if s.clockRuns e.playback then
    { e with
      clock := e.clock + (s.playback e.playback).rate
      owned := (t.channels.get e.playback).count (ownedBy e.number) }
  else e

namespace Ticked
variable (h : Ticked (s.runList.map (·.birth)) s t)
include h

theorem record_of_owned (hs : s.Counted) {p : Fin 4} {c : Fin 512} {o : Ownership} (ho : (s.channel p c).own = some o) :
    ∃ e, s.entry? o.owner = some e ∧
      t.channel p c = if s.clockRuns p then evalOwned o (e.clock + (s.playback p).rate) else s.channel p c := by
  obtain ⟨e, he, number, rfl⟩ := hs.owners p c o ho
  refine ⟨e, number ▸ hs.entry?_eq he, ?_⟩
  rw [h.records e he c o ho number.symm]
  simp only [List.mem_map_of_mem (f := (·.birth)) he, true_and]
  rfl

/-- A playback whose clock stands keeps its channels. -/
theorem ownedOn_of_stopped (hs : s.Counted) {p : Fin 4} (stopped : s.clockRuns p = false) (n : Fin 16) :
    t.ownedOn p n = s.ownedOn p n := by
  have stands : t.channels.get p = s.channels.get p := Table.ext_get fun c => by
    show t.channel p c = s.channel p c
    rcases ho : (s.channel p c).own with _ | o
    · exact h.idle p c ho
    · obtain ⟨e, -, record⟩ := h.record_of_owned hs ho
      rw [record, stopped]
      rfl
  unfold State.ownedOn
  rw [stands]

/-- The run list after a tick with no follow pending: the entries that own nothing have left. -/
theorem runList_eq (hs : s.Counted) (plain : ∀ e ∈ s.runList, e.follow = none) :
    t.runList = (s.runList.map (RunEntry.afterTick s t)).filter fun e => 0 < e.owned := by
  have entries : s.runList.map (RunEntry.recounted t ∘ s.ticked (s.runList.map (·.birth))) =
      s.runList.map (RunEntry.afterTick s t) := by
    refine List.map_congr_left fun e he => ?_
    rw [Function.comp_apply, State.ticked, RunEntry.afterTick]
    simp only [List.mem_map_of_mem (f := (·.birth)) he, true_and]
    rcases runs : s.clockRuns e.playback
    · exact RunEntry.recounted_of_count ((hs.counts e he).trans (h.ownedOn_of_stopped hs runs e.number).symm)
    · rfl
  rw [h.runList, State.standing, List.map_map, entries]
  refine List.filter_congr fun x hx => ?_
  obtain ⟨e, he, rfl⟩ := List.mem_map.1 hx
  have follow : (RunEntry.afterTick s t e).follow = none := by
    unfold RunEntry.afterTick
    split <;> exact plain e he
  simp [RunEntry.stays, follow]

end Ticked

/-- Settles O32: the tick is the fold of its visits; with no follow pending `Ticked` says what they make together, and one visit is
`State.OwnersLegal.visited` and the test of its follow. -/
theorem fadeTickAdvancesTheRunningEntries : Obligations.FadeTickAdvancesTheRunningEntries := by
  refine ⟨fun s running => ?_, fun s b unborn => ?_, fun s e legal he => ?_⟩
  · have tick : exec .fadeTick s = .next s.tick := congrArg Host.Outcome.next (whileRunning_running running)
    rw [tick]
    refine ⟨fun stopped => congrArg Host.Outcome.next ?_, fun engine plain => ?_, rfl⟩
    · exact List.foldl_fixed' (fun b => State.visit_all_stopped stopped b) _
    · have hs := (State.engineLegal_iff_sound.1 engine).owners
      have ticked : Ticked _ s s.tick := hs.ticked plain hs.runList.births_nodup
      refine ⟨_, rfl, fun p c => ?_, ticked.runList_eq hs.counted plain, fun i => ?_, ticked.same⟩
      · rcases ho : (s.channel p c).own with _ | o
        · exact ticked.idle p c ho
        · obtain ⟨e, he, record⟩ := ticked.record_of_owned hs.counted ho
          simp only [he]
          exact record
      · by_cases left : LeftSlot s.tags s.tick.tags i
        · exact .inr (ticked.leaves.left i left)
        · exact .inl (ticked.leaves.stood i left)
  · refine State.visit_unborn (List.find?_eq_none.2 fun e he => ?_)
    simpa using unborn e he
  · have born := legal.born?_eq he
    refine ⟨State.visit_stopped born, fun runs hs => ?_⟩
    have visited := hs.visited he
    refine ⟨s.visited e, State.visit_runs born runs, fun c => ?_, fun q c other => ?_, visited.runList,
      visited.leaves.slotFollows legal.births_nodup, visited.same⟩
    · rw [visited.records]
      rcases ho : (s.channel e.playback c).own with _ | o
      · simp only [evalRecord, ho]
      · simp only [evalRecord, ho]
        rfl
    · rw [visited.records, evalRecord_of_not_owned]
      refine Bool.eq_false_iff.2 fun owned => other ?_
      obtain ⟨o, ho, hn⟩ := ownedBy_iff.1 owned
      exact (hs.counted.playback_of_owner he ho hn).symm

end Sys2Proof.Machine
end

section
namespace Sys2Proof.Machine

variable {o : Ownership} {e e' : Nat}

/-! ### The level of a record by its stage (R52) -/

theorem evalOwned_waiting (h : e < o.delay) : evalOwned o e = ⟨o.start, some { o with phase := .waiting }⟩ := if_pos h

theorem evalOwned_fading (hd : o.delay ≤ e) (ht : e < o.delay + o.time) :
    evalOwned o e = ⟨fadeLevel o e, some { o with phase := .fading }⟩ := by
  rw [evalOwned, if_neg (Nat.not_lt.2 hd), if_pos ht]

theorem evalOwned_idle (h : o.delay + o.time ≤ e) : evalOwned o e = ⟨o.target, none⟩ := by
  rw [evalOwned, if_neg (by omega), if_neg (Nat.not_lt.2 h)]

theorem fadeLevel_up (h : o.start ≤ o.target) :
    fadeLevel o e = o.start + (o.target - o.start) * (e - o.delay) / o.time := if_pos h

theorem fadeLevel_down (h : o.target < o.start) :
    fadeLevel o e = o.start - (o.start - o.target) * (e - o.delay) / o.time := if_neg (Nat.not_le.2 h)

/-! ### Where a fade goes (R54) -/

/-- The step of a fade, rounded down, does not shrink as the clock advances. -/
theorem fadeStep_mono (d D T : Nat) (h : e ≤ e') : d * (e - D) / T ≤ d * (e' - D) / T :=
  Nat.div_le_div_right (Nat.mul_le_mul_left d (Nat.sub_le_sub_right h D))

theorem fadeLevel_mono_of_up (up : o.start ≤ o.target) (h : e ≤ e') : fadeLevel o e ≤ fadeLevel o e' := by
  rw [fadeLevel_up up, fadeLevel_up up]
  exact Nat.add_le_add_left (fadeStep_mono _ _ _ h) _

theorem fadeLevel_anti_of_down (down : o.target < o.start) (h : e ≤ e') : fadeLevel o e' ≤ fadeLevel o e := by
  rw [fadeLevel_down down, fadeLevel_down down]
  exact Nat.sub_le_sub_left (fadeStep_mono _ _ _ h) _

/-- A fade reaches its target only when its time is over: until then its step is less than the whole way. -/
theorem fadeLevel_ne_target (hd : o.delay ≤ e) (ht : e < o.delay + o.time) (apart : o.start ≠ o.target) :
    fadeLevel o e ≠ o.target := by
  have within : e - o.delay < o.time := by omega
  rcases Nat.lt_or_gt_of_ne apart with up | down
  · have short := fadeStep_lt within (Nat.sub_pos_of_lt up)
    rw [fadeLevel_up up.le]
    omega
  · have short := fadeStep_lt within (Nat.sub_pos_of_lt down)
    rw [fadeLevel_down down]
    omega

/-- Settles O23: each stage by its equation; within the time the level is `fadeLevel`, which lies between its ends, stays off the
target and follows the clock. -/
theorem fadeLevelFollowsTheClock : Obligations.FadeLevelFollowsTheClock := by
  refine fun o e => ⟨evalOwned_waiting, fun hd ht => ?_, evalOwned_idle⟩
  obtain ⟨low, high⟩ := fadeLevel_between o e ht
  rw [evalOwned_fading hd ht]
  refine ⟨rfl, fadeLevel_up, fadeLevel_down, low, high, fadeLevel_ne_target hd ht, fun e' later ht' => ?_⟩
  rw [evalOwned_fading (hd.trans later) ht']
  exact ⟨fun up => fadeLevel_mono_of_up up later, fun down => fadeLevel_anti_of_down down later⟩

/-! ### What a record takes at takeover (R27, R49, R50) -/

variable {k : Take} {n : Fin 16} {level : Nat}

theorem Take.ownership_of_up (up : level ≤ k.target) :
    k.ownership n level =
      ⟨n, if k.upDelay = 0 then .fading else .waiting, level, k.target, k.upDelay, k.upTime⟩ := by
  simp only [Take.ownership, if_pos up]

theorem Take.ownership_of_down (down : k.target < level) :
    k.ownership n level =
      ⟨n, if k.downDelay = 0 then .fading else .waiting, level, k.target, k.downDelay, k.downTime⟩ := by
  simp only [Take.ownership, if_neg (Nat.not_le.2 down)]

/-- Settles O24: a cue's move by the direction of its take, a flat take by `flatTake_ownership`. -/
theorem takeoverGivesDirectionDelayAndTime : Obligations.TakeoverGivesDirectionDelayAndTime := by
  refine ⟨fun h m n level => ⟨_, rfl, rfl, rfl, rfl, rfl, fun up => ?_, fun down => ?_⟩, fun tenths c target level n => ?_⟩
  · rw [Take.ownership_of_up up]
    exact ⟨rfl, rfl⟩
  · rw [Take.ownership_of_down down]
    exact ⟨rfl, rfl⟩
  · rw [flatTake_ownership]
    exact ⟨rfl, rfl, rfl, rfl, rfl, rfl⟩

end Sys2Proof.Machine
end

section
namespace Sys2Proof.Machine

variable {s t u : State} {firing : List Nat} {n : Fin 16} {p : Fin 4}

/-! ### The restore area in terms of its stacks and BACK entries (R63, R64) -/

/-- The pairs that the BACK entries of the run list hold (R64). -/
def State.backPairs (s : State) : Nat := (s.runList.map (·.kind.pairCount)).sum

/-- The sum of a measure over a table's cells is its sum over the indices. -/
theorem Table.sum_cells {n : Nat} {α : Type} (x : Table n α) (f : α → Nat) : (x.cells.map f).sum = ∑ i, f (x.get i) := by
  have cells : x.cells = List.ofFn x.get := congrArg Table.cells (Table.ext_get (u := .tabulate x.get) (by simp))
  rw [cells, List.map_ofFn, List.sum_ofFn]
  rfl

theorem State.heldPairs_eq (s : State) : s.heldPairs = (∑ p, stackPairs (s.playback p).stack) + s.backPairs :=
  congrArg (· + s.backPairs) (Table.sum_cells s.playbacks _)

theorem State.stackPairs_le_heldPairs (s : State) (p : Fin 4) : stackPairs (s.playback p).stack ≤ s.heldPairs := by
  have part := Finset.single_le_sum (f := fun q => stackPairs (s.playback q).stack) (fun _ _ => Nat.zero_le _)
    (Finset.mem_univ p)
  rw [s.heldPairs_eq]
  exact part.trans (Nat.le_add_right _ _)

/-- A playback written anew: the pairs of its old stack go and those of its new one come. -/
theorem State.heldPairs_setPlayback_add (s : State) (p : Fin 4) (x : Playback) :
    (s.setPlayback p x).heldPairs + stackPairs (s.playback p).stack = s.heldPairs + stackPairs x.stack := by
  have written := s.playbacks.sum_set p x fun y => stackPairs y.stack
  unfold State.heldPairs
  rw [State.setPlayback_playbacks, State.setPlayback_runList]
  unfold State.playback
  omega

theorem State.backPairs_createEntry (s : State) (kind : EntryKind) (p : Fin 4) (who : StartedBy) :
    (s.createEntry kind p who).backPairs = s.backPairs + kind.pairCount := by
  simp [State.backPairs, State.createEntry]

theorem State.heldPairs_createEntry (s : State) (kind : EntryKind) (p : Fin 4) (who : StartedBy) :
    (s.createEntry kind p who).heldPairs = s.heldPairs + kind.pairCount := by
  rw [State.heldPairs_eq, State.backPairs_createEntry, s.heldPairs_eq, Nat.add_assoc]
  rfl

theorem stackPairs_sublist {a b : List RestoreEntry} (h : a.Sublist b) : stackPairs a ≤ stackPairs b :=
  (h.map _).sum_le_sum fun _ _ => Nat.zero_le _

/-! ### What only frees room in the restore area -/

/-- From `s` to `t` no stack has gained an entry, and the BACK entries hold no more pairs. -/
structure Eases (s t : State) : Prop where
  stack_sub : ∀ p, (t.playback p).stack.Sublist (s.playback p).stack
  backPairs_le : t.backPairs ≤ s.backPairs

theorem Eases.of_same (playbacks : t.playbacks = s.playbacks) (runList : t.runList = s.runList) : Eases s t where
  stack_sub p := by
    unfold State.playback
    rw [playbacks]
  backPairs_le := by
    unfold State.backPairs
    rw [runList]

theorem Eases.refl (s : State) : Eases s s := .of_same rfl rfl

theorem Eases.trans (h : Eases s t) (k : Eases t u) : Eases s u :=
  ⟨fun p => (k.stack_sub p).trans (h.stack_sub p), k.backPairs_le.trans h.backPairs_le⟩

theorem Eases.heldPairs_le (h : Eases s t) : t.heldPairs ≤ s.heldPairs := by
  rw [s.heldPairs_eq, t.heldPairs_eq]
  exact Nat.add_le_add (Finset.sum_le_sum fun p _ => stackPairs_sublist (h.stack_sub p)) h.backPairs_le

theorem State.RestoreLegal.eases (legal : s.RestoreLegal) (h : Eases s t) : t.RestoreLegal :=
  ⟨h.heldPairs_le.trans legal.held_le, fun p => (h.stack_sub p).length_le.trans (legal.depth_le p)⟩

theorem Eases.of_fills (h : FillsOnly s t) : Eases s t := .of_same (by rw [h.2.2]) (by rw [h.2.2])

theorem Eases.of_blank (h : Blank t) : Eases s t where
  stack_sub p := by
    unfold State.playback
    rw [h.playbacks, Table.get_fill]
    exact List.nil_sublist _
  backPairs_le := by
    unfold State.backPairs
    rw [h.runList]
    exact Nat.zero_le _

theorem Eases.modPlayback (p : Fin 4) {f : Playback → Playback}
    (hf : ∀ x, (f x).stack.Sublist x.stack := by exact fun _ => .refl _) : Eases s (s.modPlayback p f) where
  stack_sub q := by
    rw [State.playback_modPlayback]
    split
    · next h => exact h ▸ hf _
    · exact .refl _
  backPairs_le := Nat.le_refl _

/-! ### The engine eases the restore area but for a push and the entry of a BACK -/

theorem Eases.modEntry {f : RunEntry → RunEntry}
    (hf : ∀ x, (f x).kind.pairCount = x.kind.pairCount := by exact fun _ => rfl) : Eases s (s.modEntry n f) :=
  ⟨fun _ => .refl _, (Nat.add_left_cancel (State.heldPairs_modEntry hf)).le⟩

theorem Eases.removeEntry (e : RunEntry) : Eases s (s.removeEntry e) := by
  rw [s.removeEntry_eq]
  exact ⟨fun _ => .refl _, (List.filter_sublist.map _).sum_le_sum fun _ _ => Nat.zero_le _⟩

theorem Eases.testLeave (firing : List Nat) (n : Fin 16) : Eases s (s.testLeave firing n) := by
  obtain h | ⟨e, -, -, h⟩ := s.testLeave_cases firing n <;> rw [h]
  · exact .refl s
  · exact .removeEntry e

theorem Eases.testLeaveBorn (firing : List Nat) (b : Nat) : Eases s (s.testLeaveBorn firing b) := by
  obtain h | ⟨e, -, -, h⟩ := s.testLeaveBorn_cases firing b <;> rw [h]
  · exact .refl s
  · exact .removeEntry e

theorem Eases.release (firing : List Nat) (x : ChannelRecord) : Eases s (s.release firing x) := by
  unfold State.release
  split
  · exact Eases.trans .modEntry (.testLeave _ _)
  · exact .refl s

theorem Eases.takeover (firing : List Nat) (n : Fin 16) (p : Fin 4) (k : Take) : Eases s (s.takeover firing n p k) :=
  have counted (v : State) : Eases v (v.modEntry n fun e => { e with owned := e.owned + 1 }) := .modEntry
  ((Eases.release firing _).trans (counted _)).trans (.of_same rfl rfl)

theorem Eases.takeovers (firing : List Nat) (n : Fin 16) (p : Fin 4) (takes : List Take) :
    Eases s (takes.foldl (fun s k => s.takeover firing n p k) s) := by
  induction takes generalizing s with
  | nil => exact .refl s
  | cons k ks ih => exact (Eases.takeover firing n p k).trans ih

theorem Eases.evaluate (firing : List Nat) (n : Fin 16) : Eases s (s.evaluate firing n) := by
  unfold State.evaluate
  split
  · exact .refl s
  · dsimp only
    have records (x : Table 4 (Table 512 ChannelRecord)) : Eases s { s with channels := x } := .of_same rfl rfl
    split
    · exact (records _).trans .modEntry
    · exact ((records _).trans .modEntry).trans (.testLeave _ _)

theorem Eases.makeRoom : Eases s s.makeRoom := by
  obtain h | ⟨e, -, h⟩ := s.makeRoom_cases <;> rw [h]
  · exact .refl s
  · rw [State.forceComplete_eq]
    exact ⟨fun _ => .refl _, (List.filter_sublist.map _).sum_le_sum fun _ _ => Nat.zero_le _⟩

section
variable {kind : EntryKind} {who : StartedBy} {takes : List Take} {i : Fin 32} {h : CueHeader} {ms : List Move}

/-- A start joins its entry to a list with room made and only takes from the restore area after that. -/
theorem State.start_eases : Eases (s.makeRoom.createEntry kind p who) (s.start firing kind p who takes) :=
  (Eases.takeovers firing _ p takes).trans (.evaluate firing _)

/-- A start is legal where the restore area has room for the pairs of its entry. -/
theorem State.RestoreLegal.start (legal : s.RestoreLegal) (room : s.heldPairs + kind.pairCount ≤ Config.restorePairs) :
    (s.start firing kind p who takes).RestoreLegal := by
  have joined : (s.makeRoom.createEntry kind p who).RestoreLegal := by
    refine ⟨?_, (legal.eases Eases.makeRoom).depth_le⟩
    rw [State.heldPairs_createEntry]
    exact (Nat.add_le_add_right Eases.makeRoom.heldPairs_le _).trans room
  exact joined.eases State.start_eases

theorem State.RestoreLegal.plainStart (legal : s.RestoreLegal) (room : s.heldPairs + kind.pairCount ≤ Config.restorePairs) :
    (s.plainStart kind p who takes).RestoreLegal :=
  (legal.start room).eases (.testLeaveBorn _ _)

/-- A start whose entry holds no pairs eases the restore area. -/
theorem Eases.plainStart (none_held : kind.pairCount = 0) : Eases s (s.plainStart kind p who takes) := by
  have joined (v : State) : Eases v (v.createEntry kind p who) :=
    ⟨fun _ => .refl _, by rw [State.backPairs_createEntry, none_held, Nat.add_zero]⟩
  exact ((Eases.makeRoom.trans (joined _)).trans State.start_eases).trans (.testLeaveBorn _ _)

/-! ### The push (R66, R67) -/

/-- Discarding for room keeps the most recent entries of a stack, and no fewer than it must (R66 step 2). -/
theorem discardOldest_spec (held need : Nat) (st : List RestoreEntry) :
    ∃ k ≤ st.length, discardOldest held need st.length st = st.take k ∧
      (∀ j, k < j → j ≤ st.length → Config.restorePairs < held + stackPairs (st.take j) + need) ∧
      (k = 0 ∨ held + stackPairs (st.take k) + need ≤ Config.restorePairs) := by
  induction hn : st.length generalizing st with
  | zero => exact ⟨0, Nat.le_refl 0, by simp [discardOldest, List.length_eq_zero_iff.1 hn], by omega, .inl rfl⟩
  | succ n ih =>
    unfold discardOldest
    split
    · next room =>
      refine ⟨n + 1, Nat.le_refl _, (List.take_of_length_le hn.le).symm, by omega, .inr ?_⟩
      rwa [List.take_of_length_le hn.le]
    · next full =>
      have shorter : st.dropLast = st.take n := by rw [List.dropLast_eq_take, hn, Nat.add_sub_cancel]
      obtain ⟨k, hk, kept, least, fits⟩ := ih st.dropLast (by rw [List.length_dropLast, hn, Nat.add_sub_cancel])
      have takes {j : Nat} (hj : j ≤ n) : st.dropLast.take j = st.take j := by
        rw [shorter, List.take_take, Nat.min_eq_left hj]
      rw [takes hk] at kept fits
      refine ⟨k, hk.trans n.le_succ, kept, fun j hkj hj => ?_, fits⟩
      rcases Nat.lt_or_ge n j with last | hj'
      · rw [List.take_of_length_le (by omega)]
        exact Nat.lt_of_not_le full
      · rw [← takes hj']
        exact least j hkj hj'

/-- A stack within its depth gives up its oldest entry where it is full, and has then at most 7 (R66 step 1). -/
theorem dropFull_eq_take {st : List RestoreEntry} (depth : st.length ≤ Config.restoreDepth) :
    (if Config.restoreDepth ≤ st.length then st.dropLast else st) = st.take 7 := by
  have eight : Config.restoreDepth = 8 := rfl
  split
  · rw [List.dropLast_eq_take, show st.length - 1 = 7 by omega]
  · rw [List.take_of_length_le (by omega)]

/-- Settles O28: `discardOldest_spec` on the seven most recent entries of the stack. -/
theorem pushDiscardsOnlyForRoom : Obligations.PushDiscardsOnlyForRoom := by
  intro s p ms legal old others pairs
  obtain ⟨k, hk, kept, least, fits⟩ := discardOldest_spec others pairs.length (old.take 7)
  have roomy : s.roomyStack p pairs.length = discardOldest others pairs.length (old.take 7).length (old.take 7) := by
    rw [← dropFull_eq_take (legal.depth_le p)]
    rfl
  have need : pairs.length = ms.length := List.length_map _
  rw [List.length_take, Nat.le_min] at hk
  have takes {j : Nat} (hj : j ≤ 7) : (old.take 7).take j = old.take j := by rw [List.take_take, Nat.min_eq_left hj]
  rw [takes hk.1] at kept fits
  rw [need] at fits
  have push : s.push p ms = if others + stackPairs (old.take k) + ms.length ≤ Config.restorePairs then
      s.setPlayback p { s.playback p with stack := ⟨(s.playback p).currentCue, pairs⟩ :: old.take k }
      else (s.setPlayback p { s.playback p with stack := old.take k }).notifyDesks .backLost := by
    rw [← kept, ← roomy, ← need]
    rfl
  refine ⟨k, hk.2, hk.1, fun j hkj hj h7 => ?_, ?_⟩
  · have beyond := least j hkj (by rw [List.length_take]; exact Nat.le_min.2 ⟨h7, hj⟩)
    rwa [takes h7, need] at beyond
  · by_cases room : others + stackPairs (old.take k) + ms.length ≤ Config.restorePairs
    · exact .inl ⟨room, by rw [push, if_pos room]⟩
    · obtain rfl := fits.resolve_right room
      exact .inr ⟨rfl, Nat.lt_of_not_le room, by rw [push, if_neg room]; rfl⟩

theorem State.RestoreLegal.push (legal : s.RestoreLegal) (p : Fin 4) (ms : List Move) : (s.push p ms).RestoreLegal := by
  obtain ⟨k, -, depth, -, ⟨room, e⟩ | ⟨-, -, e⟩⟩ := pushDiscardsOnlyForRoom s p ms legal <;> rw [e]
  · refine ⟨?_, fun q => ?_⟩
    · have written := s.heldPairs_setPlayback_add p { s.playback p with
        stack := ⟨(s.playback p).currentCue, s.capture p ms⟩ :: (s.playback p).stack.take k }
      have part := s.stackPairs_le_heldPairs p
      have pushed : stackPairs (⟨(s.playback p).currentCue, s.capture p ms⟩ :: (s.playback p).stack.take k) =
          ms.length + stackPairs ((s.playback p).stack.take k) :=
        congrArg (· + _) (List.length_map _)
      rw [pushed] at written
      exact Nat.le_of_add_le_add_right (written.trans_le (show _ ≤ 2048 + _ by omega))
    · rw [State.playback_setPlayback]
      split
      · exact Nat.succ_le_succ ((List.length_take_le _ _).trans depth)
      · exact legal.depth_le q
  · have emptied : Eases s (s.modPlayback p fun x => { x with stack := [] }) := .modPlayback p fun _ => List.nil_sublist _
    exact legal.eases (emptied.trans (.of_same rfl rfl))

/-! ### The restore area through GO, BACK, follows and clocks (R35, R36, R69) -/

/-- The start of a GO or follow: past its push it takes nothing from the restore area. -/
theorem State.RestoreLegal.cueStart (legal : s.RestoreLegal) : (s.cueStart firing p i h ms who).RestoreLegal := by
  have before : Eases (s.push p ms) (s.beforeStart p i h ms who) :=
    Eases.trans (t := (s.push p ms).setSlot i (.running h ms)) (.of_same rfl rfl)
      (.modPlayback p (f := fun x => { x with
        held := false, currentCue := h.cue, echo := some ⟨.cue, h.cue, who⟩, echoTimer := some 2000 }))
  have started := (legal.push p ms).eases before
  exact started.start started.held_le

end

theorem State.RestoreLegal.testFollow (legal : s.RestoreLegal) (fuel : Nat) (chain : List (Fin 32)) (firing : List Nat)
    (b : Nat) : (State.testFollow fuel chain firing b s).RestoreLegal := by
  induction fuel using Nat.strong_induction_on generalizing s chain firing b with
  | _ fuel ih =>
    have cleared (e : RunEntry) : Eases s (s.modEntry e.number RunEntry.clearFollow) :=
      .modEntry RunEntry.pairCount_clearFollow
    have lapsed {v : State} : Eases v (v.notifyDesks .followLapsed) := .of_same rfl rfl
    obtain ⟨-, h⟩ | ⟨_, -, -, h⟩ | ⟨e, _, -, -, -, -, h⟩ | ⟨e, _, _, _, -, -, -, -, -, some_fuel, h⟩ :=
      s.testFollow_cases fuel chain firing b <;> rw [h]
    · exact legal
    · exact legal.eases (.testLeaveBorn firing b)
    · exact legal.eases (((cleared e).trans lapsed).trans (.testLeaveBorn firing b))
    · exact (ih _ (Nat.pred_lt some_fuel) (legal.eases (cleared e)).cueStart _ _ _).eases (.testLeaveBorn firing b)

theorem State.RestoreLegal.takeGo (legal : s.RestoreLegal) (d : Desk) {i : Fin 32} {h : CueHeader} {ms : List Move}
    (ready : s.slot i = .ready h ms) : (s.takeGo d p i h ms).RestoreLegal := by
  unfold State.takeGo
  rw [State.beginCue_eq _ [] p i h ms (.desk d) ready]
  exact legal.cueStart.testFollow _ _ _ _

/-- The pairs of the popped entry pass from the stack to the new BACK entry (R64, R69). -/
theorem State.RestoreLegal.takeBack (legal : s.RestoreLegal) (d : Desk) {top : RestoreEntry} {rest : List RestoreEntry}
    (stack : (s.playback p).stack = top :: rest) : (s.takeBack d p top rest).RestoreLegal := by
  rw [State.takeBack_eq]
  have written := s.heldPairs_setPlayback_add p ((s.playback p).wentBack d top rest)
  have old : stackPairs (s.playback p).stack = top.pairs.length + stackPairs rest := by rw [stack]; rfl
  have new : stackPairs ((s.playback p).wentBack d top rest).stack = stackPairs rest := rfl
  have held := legal.held_le
  refine State.RestoreLegal.plainStart ⟨by omega, fun q => ?_⟩ (show _ + top.pairs.length ≤ _ by omega)
  rw [State.playback_setPlayback]
  split
  · have depth := legal.depth_le p
    rw [stack] at depth
    exact (Nat.le_succ _).trans depth
  · exact legal.depth_le q

theorem State.RestoreLegal.visit (legal : s.RestoreLegal) (b : Nat) : (s.visit b).RestoreLegal := by
  unfold State.visit
  repeat' split
  · exact legal
  · exact (legal.eases (.trans .modEntry (.evaluate _ _))).testFollow _ _ _ _
  · exact legal

theorem State.RestoreLegal.tick (legal : s.RestoreLegal) : s.tick.RestoreLegal := by
  unfold State.tick
  generalize s.runList.map (·.birth) = bs
  induction bs generalizing s with
  | nil => exact legal
  | cons b bs ih => exact ih (legal.visit b)

theorem State.RestoreLegal.followDue (legal : s.RestoreLegal) (n : Fin 16) : (s.followDue n).RestoreLegal := by
  unfold State.followDue
  repeat' split
  · exact legal
  · exact legal.testFollow _ _ _ _
  · exact legal

end Sys2Proof.Machine
end

section
namespace Sys2Proof.Machine

variable {s t u : State}

/-! ### The rows that ease the restore area -/

theorem Eases.settle (l : Link) (v : Verdict) : Eases v.state (settle l v) := by
  cases v <;> exact .of_same rfl rfl

theorem Eases.refuseFirst (checks : List (Bool × ResultCode)) {taken : Verdict} (h : Eases s taken.state) :
    Eases s (refuseFirst checks s taken).state :=
  refuseFirst_keeps checks (.refl s) fun _ => h

theorem Eases.setHolds (ps : List (Fin 4)) (b : Bool) : Eases s (s.setHolds ps b) := by
  unfold State.setHolds
  induction ps generalizing s with
  | nil => exact .refl s
  | cons p ps ih => exact Eases.trans (.modPlayback p) ih

theorem Eases.handOn (l : Link) (x : Receiver × List Request) : Eases s (s.handOn l x) := by
  have arrived (qs : List Request) (v : State) : Eases v (qs.foldl (fun v q => v.arrive l q) v) := by
    induction qs generalizing v with
    | nil => exact .refl v
    | cons q qs ih => exact Eases.trans (t := v.arrive l q) (.of_same rfl rfl) (ih _)
  exact Eases.trans (t := s.modPort l fun p => { p with receiver := x.1 }) (.of_same rfl rfl) (arrived x.2 _)

theorem Eases.openSlot (d : Desk) (lead : Bool) (i : Fin 32) (h : CueHeader) (code : ResultCode) :
    Eases s (openSlot d lead i h code s).state := by
  unfold Machine.openSlot divergedOpen replaceSlot absorb
  dsimp only
  repeat' split
  all_goals exact .of_same rfl rfl

theorem Eases.takeRelease (d : Desk) (p : Fin 4) : Eases s (s.takeRelease d p) := by
  have cleared : Eases s (s.modPlayback p fun x => { x with stack := [], currentCue := 0 }) :=
    .modPlayback p fun _ => List.nil_sublist _
  obtain h | h := State.takeRelease_cases d p <;> rw [h]
  · exact cleared
  · exact cleared.trans (.plainStart rfl)

theorem Eases.dipRestart : Eases s s.dipRestart := by
  unfold State.dipRestart State.abandonSave State.invalidate
  dsimp only
  repeat' split
  all_goals exact .of_same rfl rfl

theorem Eases.leadSilent (d : Desk) : Eases s (s.leadSilent d) := by
  unfold State.leadSilent
  repeat' split
  all_goals exact .of_same rfl rfl

theorem Eases.silence (l : Link) : Eases s (s.silence l) := by
  unfold State.silence
  dsimp only
  have fallen : Eases s (s.modPort l Port.fallSilent) := .of_same rfl rfl
  repeat' split
  · exact .refl s
  · exact (fallen.trans (.leadSilent _)).trans (.of_fills (State.endFill_only _ _))
  · exact fallen.trans (.of_same rfl rfl)

section
variable (l : Link) (body : List Byte) (role : Role) (s : State)

theorem decideCueOpen_eases : Eases s (decideCueOpen l body role s).state := by
  unfold decideCueOpen
  repeat' split
  any_goals exact .refl s
  · exact (Eases.of_fills (s.endFill_only _)).trans (.openSlot _ _ _ _ _)

theorem decideManual_eases : Eases s (decideManual l body role s).state := by
  unfold decideManual
  repeat' split
  any_goals exact .refl s
  · refine .refuseFirst _ ?_
    rw [answer_state]
    exact .plainStart rfl

theorem decideRelease_eases : Eases s (decideRelease l body role s).state := by
  unfold decideRelease
  repeat' split
  · exact .refl s
  · exact .refl s
  · exact .refl s
  · refine .refuseFirst _ ?_
    rw [answer_state]
    exact .takeRelease _ _

theorem decideHolds_eases (b : Bool) : Eases s (decideHolds b l body role s).state := by
  unfold decideHolds
  repeat' split
  any_goals exact .refl s
  · exact .setHolds _ b

theorem decideRate_eases : Eases s (decideRate l body role s).state := by
  unfold decideRate
  repeat' split
  any_goals exact .refl s
  · rw [answer_state]
    exact .modPlayback _

theorem decidePbLevel_eases : Eases s (decidePbLevel l body role s).state := by
  unfold decidePbLevel
  repeat' split
  any_goals exact .refl s
  · rw [answer_state]
    exact .modPlayback _

end

/-! ### One step -/

namespace State.RestoreLegal

variable (l : Link) (body : List Byte) (role : Role)

theorem decideGo (legal : s.RestoreLegal) : (decideGo l body role s).state.RestoreLegal := by
  unfold Machine.decideGo
  repeat' split
  any_goals exact legal
  all_goals refine refuseFirst_keeps _ legal fun _ => ?_
  any_goals exact legal
  next d _ _ _ p i _ _ _ _ h ms ready _ _ => exact legal.takeGo d ready

theorem decideBack (legal : s.RestoreLegal) : (decideBack l body role s).state.RestoreLegal := by
  unfold Machine.decideBack
  repeat' split
  any_goals exact legal
  all_goals refine refuseFirst_keeps _ legal fun _ => ?_
  any_goals exact legal
  next d _ _ p _ _ top rest stack _ => exact legal.takeBack d stack

theorem requestRow (l : Link) (q : Request) {decision : Role → State → Verdict} (legal : s.RestoreLegal)
    (hd : ∀ role s, s.RestoreLegal → (decision role s).state.RestoreLegal) :
    (Machine.requestRow l q decision s).RestoreLegal := by
  have received : Eases s (s.receive l q) := .of_same rfl rfl
  obtain ⟨-, h⟩ | ⟨-, h⟩ | ⟨-, -, h⟩ | ⟨-, -, h⟩ := requestRow_cases s l q decision <;> rw [h]
  · exact legal
  · exact (hd _ _ legal).eases (.settle l _)
  · exact (hd _ _ (legal.eases received)).eases (.settle l _)
  · exact legal.eases received

/-- A request row whose decision eases the restore area. -/
theorem easyRow (l : Link) (q : Request) {decision : Role → State → Verdict} (legal : s.RestoreLegal)
    (hd : ∀ role s, Eases s (decision role s).state) : (Machine.requestRow l q decision s).RestoreLegal :=
  legal.requestRow l q fun role _ h => h.eases (hd role _)

/-- Whatever the command, the restore area stays legal. -/
theorem exec {c : Instr} (legal : s.RestoreLegal) (h : Machine.exec c s = .next t) : t.RestoreLegal := by
  cases c <;> obtain rfl := Host.Outcome.next.inj h
  case go => exact legal.requestRow _ _ fun _ _ => .decideGo _ _ _
  case back => exact legal.requestRow _ _ fun _ _ => .decideBack _ _ _
  case fadeTick => exact whileRunning_keeps legal legal.tick
  case followDue => exact whileRunning_keeps legal (legal.followDue _)
  case unknownKind =>
    split
    · exact legal
    · exact legal.easyRow _ _ fun _ s => .refl s
  case cueOpen => exact legal.easyRow _ _ (decideCueOpen_eases _ _)
  case manual => exact legal.easyRow _ _ (decideManual_eases _ _)
  case release => exact legal.easyRow _ _ (decideRelease_eases _ _)
  case hold => exact legal.easyRow _ _ fun role s => decideHolds_eases _ _ role s true
  case resume => exact legal.easyRow _ _ fun role s => decideHolds_eases _ _ role s false
  case rate => exact legal.easyRow _ _ (decideRate_eases _ _)
  case pbLevel => exact legal.easyRow _ _ (decidePbLevel_eases _ _)
  -- No branch of the other requests writes a playback or the run list.
  case status | read | takeLead | yieldLead | linkSetup | cueMoves | cueClose | cueDrop | playbackSetup | patchSet
      | bankClear | bankCopy | bankSelect | startBank | profileSet | lawLoad | park | flash | nudge | unpark | lineSetup
      | lookSet | lookRaise | lookLower | grand | rackSetup | save =>
    refine legal.easyRow _ _ fun role s => ?_
    simp only [decideStatus, decideRead, decideTakeLead, decideYieldLead, decideLinkSetup, decideCueMoves, decideCueClose,
      decideCueDrop, decidePlaybackSetup, decidePatchSet, State.patch, decideBankClear, decideBankCopy, decideBankSelect,
      decideStartBank, decideProfileSet, State.setProfile, decideLawLoad, decidePark, decideFlash, setPark, decideNudge,
      decideUnpark, decideLineSetup, State.setupLine, State.edge, decideLookSet, decideRaise, decideGrand, decideRackSetup,
      decideSave, State.invalidate, refuseFirst]
    repeat' split
    all_goals exact .of_same rfl rfl
  case echoTimerExpiry => exact whileRunning_keeps legal (legal.eases (.modPlayback _))
  case badTelegram | linkByteReceived => exact whileRunning_keeps legal (legal.eases (.handOn _ _))
  -- Nor does any branch of these events.
  case validTelegram | interByteGap | replySent | flashTimerExpiry | supplyDip =>
    exact whileRunning_keeps legal (legal.eases (.of_same rfl rfl))
  case rebuildEnd | debounceTimerExpiry | frameStart | saveEnd | saveWriteFailure =>
    refine whileRunning_keeps legal (legal.eases ?_)
    simp only [State.endRebuild, State.firstFrames, State.debounceExpiry, State.edge, State.frameStart, State.saveEnd,
      State.storeWorking, State.saveFailure, State.invalidate, State.answerTimed]
    repeat' split
    all_goals exact .of_same rfl rfl
  case lineInputChange =>
    refine legal.eases ?_
    unfold State.inputChange
    dsimp only
    repeat' split
    all_goals exact .of_same rfl rfl
  case silenceMonitorExpiry => exact whileRunning_keeps legal (legal.eases (.silence _))
  case resetAssert =>
    unfold State.lowerReset
    split
    · exact legal.eases (.of_blank (Blank.assertReset s))
    · exact legal.eases (.of_blank (Blank.assertReset s))
    · exact legal.eases (.of_same rfl rfl)
  case coldStart =>
    unfold State.startCold
    split
    · exact legal.eases (.of_blank (Blank.coldStart s))
    · exact legal.eases (.of_blank (Blank.coldStart s))
    · exact legal.eases (.of_blank (Blank.coldStart s))
    · exact legal.eases (.of_same rfl rfl)
  case dipRestart =>
    unfold State.recover
    split
    · exact legal
    · exact legal
    · exact legal.eases .dipRestart
    · exact legal.eases (.of_blank (Blank.assertReset s))

end State.RestoreLegal

/-- Settles O38: beside the push (`State.RestoreLegal.push`) and the entry of a BACK (`State.RestoreLegal.takeBack`) every change
of the restore area only frees room (`Eases`). -/
theorem everyStepKeepsTheRestoreAreaLegal : Obligations.EveryStepKeepsTheRestoreAreaLegal := by
  intro s t legal h
  unfold step at h
  split at h
  · cases h
    exact legal
  · next rest _ =>
    have taken : Eases s { s with pending := rest } := .of_same rfl rfl
    exact (legal.eases taken).exec h

end Sys2Proof.Machine
end

section
namespace Sys2Proof.Machine

variable {b : List PatchEntry} {c : Fin 512} {d : Fin 768} {percent : Nat} {e x y z : PatchEntry}

/-! ### The order of a bank (R75) -/

theorem PatchEntry.before_iff :
    x.before y = true ↔ x.channel < y.channel ∨ x.channel = y.channel ∧ x.circuit < y.circuit := by
  simp only [PatchEntry.before, Bool.or_eq_true, Bool.and_eq_true, decide_eq_true_eq]

theorem PatchEntry.isPair_iff : e.isPair c d = true ↔ e.channel = c ∧ e.circuit = d := by
  simp only [PatchEntry.isPair, Bool.and_eq_true, decide_eq_true_eq]

theorem PatchEntry.before_trans (h : x.before y = true) (k : y.before z = true) : x.before z = true := by
  rw [PatchEntry.before_iff] at *
  omega

/-- Of two entries of different pairs one stands before the other. -/
theorem PatchEntry.before_of_not_before (apart : ¬ (y.channel = x.channel ∧ y.circuit = x.circuit))
    (after : ¬ x.before y = true) : y.before x = true := by
  rw [PatchEntry.before_iff] at *
  omega

theorem hasPair_iff : (b.any (·.isPair c d)) = true ↔ ∃ e ∈ b, e.channel = c ∧ e.circuit = d := by
  simp only [List.any_eq_true, PatchEntry.isPair_iff]

/-! ### What a PATCH_SET does to a bank (R82) -/

/-- The three things a PATCH_SET can do to a bank. -/
theorem patchBank_cases (c : Fin 512) (d : Fin 768) (percent : Nat) (b : List PatchEntry) :
    (percent = 0 ∧ patchBank c d percent b = removeEntryOf c d b) ∨
    (percent ≠ 0 ∧ (∃ e ∈ b, e.channel = c ∧ e.circuit = d) ∧
      patchBank c d percent b = updateEntry ⟨c, d, percent⟩ b) ∨
    (percent ≠ 0 ∧ (∀ e ∈ b, ¬ (e.channel = c ∧ e.circuit = d)) ∧
      patchBank c d percent b = insertEntry ⟨c, d, percent⟩ b) := by
  unfold patchBank
  by_cases zero : percent = 0
  · exact .inl ⟨zero, if_pos zero⟩
  · rw [if_neg zero]
    by_cases held : ∃ e ∈ b, e.channel = c ∧ e.circuit = d
    · exact .inr (.inl ⟨zero, held, if_pos (hasPair_iff.2 held)⟩)
    · exact .inr (.inr ⟨zero, fun e he same => held ⟨e, he, same⟩, if_neg (mt hasPair_iff.1 held)⟩)

theorem insertEntry_perm (e : PatchEntry) (b : List PatchEntry) : (insertEntry e b).Perm (e :: b) := by
  induction b with
  | nil => exact .refl _
  | cons x rest ih =>
    unfold insertEntry
    split
    · exact .refl _
    · exact (ih.cons x).trans (.swap e x rest)

theorem mem_removeEntryOf : x ∈ removeEntryOf c d b ↔ x ∈ b ∧ ¬ (x.channel = c ∧ x.circuit = d) := by
  rw [removeEntryOf, List.mem_filter, Bool.not_eq_true', ← Bool.not_eq_true, PatchEntry.isPair_iff]

/-- The entry that an update leaves where `x` stood. -/
def PatchEntry.updated (e x : PatchEntry) : PatchEntry := if x.isPair e.channel e.circuit then e else x

theorem updateEntry_eq (e : PatchEntry) (b : List PatchEntry) : updateEntry e b = b.map e.updated := rfl

theorem PatchEntry.updated_of_pair (h : x.channel = e.channel ∧ x.circuit = e.circuit) : e.updated x = e :=
  if_pos (PatchEntry.isPair_iff.2 h)

theorem PatchEntry.updated_of_other (h : ¬ (x.channel = e.channel ∧ x.circuit = e.circuit)) : e.updated x = x :=
  if_neg (mt PatchEntry.isPair_iff.1 h)

theorem PatchEntry.updated_pair (e x : PatchEntry) :
    (e.updated x).channel = x.channel ∧ (e.updated x).circuit = x.circuit := by
  by_cases h : x.channel = e.channel ∧ x.circuit = e.circuit
  · rw [PatchEntry.updated_of_pair h]
    exact ⟨h.1.symm, h.2.symm⟩
  · rw [PatchEntry.updated_of_other h]
    exact ⟨rfl, rfl⟩

theorem mem_updateEntry (held : ∃ y ∈ b, y.channel = e.channel ∧ y.circuit = e.circuit) :
    x ∈ updateEntry e b ↔ (x ∈ b ∧ ¬ (x.channel = e.channel ∧ x.circuit = e.circuit)) ∨ x = e := by
  rw [updateEntry_eq, List.mem_map]
  constructor
  · rintro ⟨y, hy, rfl⟩
    by_cases same : y.channel = e.channel ∧ y.circuit = e.circuit
    · exact .inr (PatchEntry.updated_of_pair same)
    · rw [PatchEntry.updated_of_other same]
      exact .inl ⟨hy, same⟩
  · rintro (⟨hx, other⟩ | rfl)
    · exact ⟨x, hx, PatchEntry.updated_of_other other⟩
    · obtain ⟨y, hy, same⟩ := held
      exact ⟨y, hy, PatchEntry.updated_of_pair same⟩

/-- A bank after a PATCH_SET: the pair at the percent, or gone at 0, and every other entry as before (R82). -/
theorem mem_patchBank : x ∈ patchBank c d percent b ↔
    (x ∈ b ∧ ¬ (x.channel = c ∧ x.circuit = d)) ∨ (percent ≠ 0 ∧ x = ⟨c, d, percent⟩) := by
  obtain ⟨zero, h⟩ | ⟨some_percent, held, h⟩ | ⟨some_percent, new, h⟩ := patchBank_cases c d percent b <;> rw [h]
  · rw [mem_removeEntryOf]
    exact (or_iff_left fun k => k.1 zero).symm
  · rw [mem_updateEntry held]
    exact or_congr_right (and_iff_right some_percent).symm
  · rw [(insertEntry_perm _ b).mem_iff, List.mem_cons, or_comm]
    exact or_congr (and_iff_left_of_imp (new x)).symm (and_iff_right some_percent).symm

/-! ### A PATCH_SET leaves a legal bank (R75) -/

theorem insertEntry_ordered (ordered : b.Pairwise fun x y => x.before y = true)
    (new : ∀ x ∈ b, ¬ (x.channel = e.channel ∧ x.circuit = e.circuit)) :
    (insertEntry e b).Pairwise fun x y => x.before y = true := by
  induction b with
  | nil => exact List.pairwise_singleton _ _
  | cons x rest ih =>
    obtain ⟨first, ordered'⟩ := List.pairwise_cons.1 ordered
    unfold insertEntry
    split
    · next before =>
      refine List.pairwise_cons.2 ⟨fun y hy => ?_, ordered⟩
      rcases List.mem_cons.1 hy with rfl | hy
      · exact before
      · exact PatchEntry.before_trans before (first y hy)
    · next after =>
      refine List.pairwise_cons.2 ⟨fun y hy => ?_, ih ordered' fun y hy => new y (List.mem_cons_of_mem x hy)⟩
      rcases List.mem_cons.1 ((insertEntry_perm e rest).subset hy) with rfl | hy
      · exact PatchEntry.before_of_not_before (new x List.mem_cons_self) after
      · exact first y hy

theorem updateEntry_ordered (e : PatchEntry) (ordered : b.Pairwise fun x y => x.before y = true) :
    (updateEntry e b).Pairwise fun x y => x.before y = true := by
  have same (x y : PatchEntry) : (e.updated x).before (e.updated y) = x.before y := by
    obtain ⟨channel, circuit⟩ := e.updated_pair x
    obtain ⟨channel', circuit'⟩ := e.updated_pair y
    unfold PatchEntry.before
    rw [channel, circuit, channel', circuit']
  rw [updateEntry_eq, List.pairwise_map]
  exact ordered.imp fun {x y} h => (same x y).trans h

theorem BankLegal.nil : BankLegal [] := ⟨Nat.zero_le _, .nil, fun _ h => nomatch h⟩

/-- A PATCH_SET that adds an entry needs room for it; at any other it keeps the number of entries or takes one away. -/
theorem BankLegal.patchBank (legal : BankLegal b) (percent_le : percent ≤ 100)
    (room : percent ≠ 0 → (∀ e ∈ b, ¬ (e.channel = c ∧ e.circuit = d)) → b.length < Config.bankEntries) :
    BankLegal (patchBank c d percent b) where
  length_le := by
    obtain ⟨-, h⟩ | ⟨-, -, h⟩ | ⟨some_percent, new, h⟩ := patchBank_cases c d percent b <;> rw [h]
    · exact (List.length_filter_le _ _).trans legal.length_le
    · exact (List.length_map _).trans_le legal.length_le
    · exact (insertEntry_perm _ b).length_eq.trans_le (room some_percent new)
  ordered := by
    obtain ⟨-, h⟩ | ⟨-, -, h⟩ | ⟨-, new, h⟩ := patchBank_cases c d percent b <;> rw [h]
    · exact legal.ordered.filter _
    · exact updateEntry_ordered _ legal.ordered
    · exact insertEntry_ordered legal.ordered new
  percents x hx := by
    obtain ⟨hx, -⟩ | ⟨some_percent, rfl⟩ := mem_patchBank.1 hx
    · exact legal.percents x hx
    · exact ⟨Nat.one_le_iff_ne_zero.2 some_percent, percent_le⟩

/-! ### The feeders of a bank after a PATCH_SET (R77, R83) -/

theorem feedersOf_nil (d : Fin 768) : feedersOf [] d = [] := rfl

theorem feedersOf_cons (e : PatchEntry) (b : List PatchEntry) (d : Fin 768) : feedersOf (e :: b) d =
    if e.circuit = d then ⟨e.channel, e.percent⟩ :: feedersOf b d else feedersOf b d := by
  unfold feedersOf
  rw [List.filter_cons]
  by_cases h : e.circuit = d <;> simp [h]

theorem mem_feedersOf {f : Feeder} : f ∈ feedersOf b d ↔ ∃ e ∈ b, e.circuit = d ∧ (⟨e.channel, e.percent⟩ : Feeder) = f := by
  simp only [feedersOf, List.mem_map, List.mem_filter, decide_eq_true_eq, and_assoc]

/-- A circuit has a feeder of a channel exactly when the bank holds the pair. -/
theorem feedersOf_any (b : List PatchEntry) (c : Fin 512) (d : Fin 768) :
    ((feedersOf b d).any fun f => f.channel = c) = true ↔ ∃ e ∈ b, e.channel = c ∧ e.circuit = d := by
  simp only [List.any_eq_true, decide_eq_true_eq, mem_feedersOf]
  constructor
  · rintro ⟨_, ⟨e, he, circuit, rfl⟩, channel⟩
    exact ⟨e, he, channel, circuit⟩
  · rintro ⟨e, he, channel, circuit⟩
    exact ⟨_, ⟨e, he, circuit, rfl⟩, channel⟩

theorem feedersOf_removeEntryOf (c : Fin 512) (d : Fin 768) (b : List PatchEntry) :
    feedersOf (removeEntryOf c d b) d = (feedersOf b d).filter fun f => f.channel ≠ c := by
  unfold feedersOf removeEntryOf
  rw [List.filter_map, List.filter_filter, List.filter_filter]
  congr 1
  refine List.filter_congr fun x _ => ?_
  by_cases circuit : x.circuit = d <;> simp [PatchEntry.isPair, circuit]

theorem feedersOf_removeEntryOf_other {k : Fin 768} (other : k ≠ d) (b : List PatchEntry) :
    feedersOf (removeEntryOf c d b) k = feedersOf b k := by
  unfold feedersOf removeEntryOf
  rw [List.filter_filter]
  congr 1
  refine List.filter_congr fun x _ => ?_
  by_cases circuit : x.circuit = k <;> simp [PatchEntry.isPair, circuit, other]

theorem feedersOf_updateEntry (c : Fin 512) (d : Fin 768) (percent : Nat) (b : List PatchEntry) :
    feedersOf (updateEntry ⟨c, d, percent⟩ b) d =
      (feedersOf b d).map fun f => if f.channel = c then ⟨c, percent⟩ else f := by
  induction b with
  | nil => rfl
  | cons x rest ih =>
    obtain ⟨-, circuit⟩ := PatchEntry.updated_pair ⟨c, d, percent⟩ x
    rw [updateEntry_eq] at ih
    rw [updateEntry_eq, List.map_cons, feedersOf_cons, feedersOf_cons, circuit, ih]
    by_cases here : x.circuit = d
    · rw [if_pos here, if_pos here, List.map_cons]
      congr 1
      by_cases same : x.channel = c
      · rw [PatchEntry.updated_of_pair ⟨same, here⟩, if_pos same]
      · rw [PatchEntry.updated_of_other fun h => same h.1, if_neg same]
    · rw [if_neg here, if_neg here]

theorem feedersOf_updateEntry_other {k : Fin 768} (other : k ≠ e.circuit) (b : List PatchEntry) :
    feedersOf (updateEntry e b) k = feedersOf b k := by
  induction b with
  | nil => rfl
  | cons x rest ih =>
    obtain ⟨-, circuit⟩ := e.updated_pair x
    rw [updateEntry_eq] at ih
    rw [updateEntry_eq, List.map_cons, feedersOf_cons, feedersOf_cons, circuit, ih]
    by_cases here : x.circuit = k
    · rw [PatchEntry.updated_of_other fun h => other (here.symm.trans h.2)]
    · rw [if_neg here, if_neg here]

theorem feedersOf_insertEntry_other {k : Fin 768} (other : k ≠ e.circuit) (b : List PatchEntry) :
    feedersOf (insertEntry e b) k = feedersOf b k := by
  induction b with
  | nil => rw [insertEntry, feedersOf_cons, if_neg other.symm]
  | cons x rest ih =>
    unfold insertEntry
    split
    · rw [feedersOf_cons, if_neg other.symm]
    · rw [feedersOf_cons, feedersOf_cons, ih]

/-- Once an entry stands before the rest of the bank, its circuit has no feeder of a lower channel behind it. -/
theorem feedersOf_above (first : ∀ y ∈ b, e.before y = true) : ∀ f ∈ feedersOf b e.circuit, ¬ f.channel < e.channel := by
  intro f hf
  obtain ⟨y, hy, circuit, rfl⟩ := mem_feedersOf.1 hf
  have before := PatchEntry.before_iff.1 (first y hy)
  rw [circuit] at before
  dsimp only
  omega

/-- A new entry joins its circuit's feeders at its place in ascending channel order. -/
theorem feedersOf_insertEntry (ordered : b.Pairwise fun x y => x.before y = true)
    (new : ∀ x ∈ b, ¬ (x.channel = c ∧ x.circuit = d)) :
    feedersOf (insertEntry ⟨c, d, percent⟩ b) d =
      (feedersOf b d).takeWhile (fun f => f.channel < c) ++ ⟨c, percent⟩ ::
        (feedersOf b d).dropWhile (fun f => f.channel < c) := by
  induction b with
  | nil => rw [insertEntry, feedersOf_cons, if_pos rfl]; rfl
  | cons x rest ih =>
    obtain ⟨first, ordered'⟩ := List.pairwise_cons.1 ordered
    unfold insertEntry
    split
    · next before =>
      have above := feedersOf_above (e := ⟨c, d, percent⟩) (b := x :: rest) fun y hy => by
        rcases List.mem_cons.1 hy with rfl | hy
        · exact before
        · exact PatchEntry.before_trans before (first y hy)
      rw [feedersOf_cons, if_pos rfl]
      rcases hfs : feedersOf (x :: rest) d with _ | ⟨f, fs⟩
      · rfl
      · have lead : ¬ f.channel < c := above f (hfs ▸ List.mem_cons_self)
        rw [List.takeWhile_cons_of_neg (by simpa using lead), List.dropWhile_cons_of_neg (by simpa using lead)]
        rfl
    · next after =>
      have behind := PatchEntry.before_iff.1
        (PatchEntry.before_of_not_before (x := ⟨c, d, percent⟩) (new x List.mem_cons_self) after)
      rw [feedersOf_cons, feedersOf_cons, ih ordered' fun y hy => new y (List.mem_cons_of_mem x hy)]
      by_cases here : x.circuit = d
      · have lower : x.channel < c := by
          dsimp only at behind
          omega
        rw [if_pos here, if_pos here, List.takeWhile_cons_of_pos (by simpa using lower),
          List.dropWhile_cons_of_pos (by simpa using lower)]
        rfl
      · rw [if_neg here, if_neg here]

theorem feedersOf_patchBank (ordered : b.Pairwise fun x y => x.before y = true) :
    feedersOf (patchBank c d percent b) d = patchFeeders c percent (feedersOf b d) := by
  unfold patchFeeders
  simp only [feedersOf_any]
  obtain ⟨zero, h⟩ | ⟨some_percent, held, h⟩ | ⟨some_percent, new, h⟩ := patchBank_cases c d percent b <;> rw [h]
  · rw [if_pos zero, feedersOf_removeEntryOf]
  · rw [if_neg some_percent, if_pos held, feedersOf_updateEntry]
  · have none_held : ¬ ∃ e ∈ b, e.channel = c ∧ e.circuit = d := fun ⟨e, he, same⟩ => new e he same
    rw [if_neg some_percent, if_neg none_held, feedersOf_insertEntry ordered new]

theorem feedersOf_patchBank_other {k : Fin 768} (other : k ≠ d) (b : List PatchEntry) :
    feedersOf (patchBank c d percent b) k = feedersOf b k := by
  obtain ⟨-, h⟩ | ⟨-, -, h⟩ | ⟨-, -, h⟩ := patchBank_cases c d percent b <;> rw [h]
  · exact feedersOf_removeEntryOf_other other b
  · exact feedersOf_updateEntry_other other b
  · exact feedersOf_insertEntry_other other b

end Sys2Proof.Machine
end

section
namespace Sys2Proof.Machine

variable {s t u : State}

/-! ### What leaves the patch unit alone -/

/-- From `s` to `t` the working banks, the live bank and the live map stand, the stored banks have kept their contents, and no
rebuild has ended. -/
structure SamePatch (s t : State) : Prop where
  banks : t.banks = s.banks
  liveBank : t.liveBank = s.liveBank
  liveMap : t.liveMap = s.liveMap
  no_end : t.rebuild = none → s.rebuild = none
  stored : ∀ n, (t.storedBanks.get n).content = (s.storedBanks.get n).content

theorem SamePatch.of_same (banks : t.banks = s.banks) (liveBank : t.liveBank = s.liveBank) (liveMap : t.liveMap = s.liveMap)
    (rebuild : t.rebuild = s.rebuild) (stored : t.storedBanks = s.storedBanks) : SamePatch s t :=
  ⟨banks, liveBank, liveMap, fun h => rebuild ▸ h, fun n => by rw [stored]⟩

theorem SamePatch.refl (s : State) : SamePatch s s := .of_same rfl rfl rfl rfl rfl

theorem SamePatch.trans (h : SamePatch s t) (k : SamePatch t u) : SamePatch s u :=
  ⟨k.banks.trans h.banks, k.liveBank.trans h.liveBank, k.liveMap.trans h.liveMap, fun e => h.no_end (k.no_end e),
    fun n => (k.stored n).trans (h.stored n)⟩

theorem State.PatchLegal.same (legal : s.PatchLegal) (h : SamePatch s t) : t.PatchLegal where
  banks n := by
    unfold State.bank
    rw [h.banks]
    exact legal.banks n
  stored n := by
    rw [h.stored]
    exact legal.stored n
  map_live ended c := by
    unfold State.bank
    rw [h.liveMap, h.banks, h.liveBank]
    exact legal.map_live (h.no_end ended) c

theorem SamePatch.of_beside (h : SameBeside s t) : SamePatch s t := by
  rw [h.1]
  exact .of_same rfl rfl rfl rfl rfl

theorem SamePatch.of_fills (h : FillsOnly s t) : SamePatch s t := by
  rw [h.2.2]
  exact .of_same rfl rfl rfl rfl rfl

theorem SamePatch.settle (l : Link) (v : Verdict) : SamePatch v.state (settle l v) := by
  cases v <;> exact .of_same rfl rfl rfl rfl rfl

theorem SamePatch.refuseFirst (checks : List (Bool × ResultCode)) {taken : Verdict} (h : SamePatch s taken.state) :
    SamePatch s (refuseFirst checks s taken).state :=
  refuseFirst_keeps checks (.refl s) fun _ => h

theorem SamePatch.answerTimed (d : Desk) (code : ResultCode) : SamePatch s (s.answerTimed d code) := by
  unfold State.answerTimed
  split <;> exact .of_same rfl rfl rfl rfl rfl

/-- An item made INVALID keeps its content. -/
theorem SamePatch.invalidate (cls : SaveClass) : SamePatch s (s.invalidate cls) := by
  rw [s.invalidate_others]
  exact ⟨rfl, rfl, rfl, id, fun n => by rw [s.get_invalidate]⟩

theorem SamePatch.saveFailure : SamePatch s s.saveFailure := by
  unfold State.saveFailure
  split
  · exact .refl s
  · next x _ =>
    have ended : SamePatch (s.invalidate x.cls) { s.invalidate x.cls with saving := none } := .of_same rfl rfl rfl rfl rfl
    exact ((SamePatch.invalidate x.cls).trans ended).trans (.answerTimed _ _)

theorem SamePatch.dipRestart : SamePatch s s.dipRestart := by
  have save := State.abandonSave_abandoned s.resumed.restartMonitors
  have stored : s.dipRestart.storedBanks = s.resumed.restartMonitors.abandonSave.storedBanks := rfl
  rw [s.dipRestart_others]
  refine ⟨rfl, rfl, rfl, Option.map_eq_none_iff.1, fun n => ?_⟩
  rw [stored, save.banks]
  rfl

theorem SamePatch.setHolds (ps : List (Fin 4)) (b : Bool) : SamePatch s (s.setHolds ps b) := by
  rw [s.setHolds_eq]
  exact .of_same rfl rfl rfl rfl rfl

theorem SamePatch.handOn (l : Link) (x : Receiver × List Request) : SamePatch s (s.handOn l x) := by
  have arrived (qs : List Request) (v : State) : SamePatch v (qs.foldl (fun v q => v.arrive l q) v) := by
    induction qs generalizing v with
    | nil => exact .refl v
    | cons q qs ih => exact SamePatch.trans (t := v.arrive l q) (.of_same rfl rfl rfl rfl rfl) (ih _)
  exact SamePatch.trans (t := s.modPort l fun p => { p with receiver := x.1 }) (.of_same rfl rfl rfl rfl rfl)
    (arrived x.2 _)

theorem SamePatch.silence (l : Link) : SamePatch s (s.silence l) := by
  have lead_gone (v : State) (d : Desk) : SamePatch v (v.leadSilent d) := by
    unfold State.leadSilent
    repeat' split
    all_goals exact .of_same rfl rfl rfl rfl rfl
  unfold State.silence
  dsimp only
  have fallen : SamePatch s (s.modPort l Port.fallSilent) := .of_same rfl rfl rfl rfl rfl
  repeat' split
  · exact .refl s
  · exact (fallen.trans (lead_gone _ _)).trans (.of_fills (State.endFill_only _ _))
  · exact fallen.trans (.of_same rfl rfl rfl rfl rfl)

theorem SamePatch.openSlot (d : Desk) (lead : Bool) (i : Fin 32) (h : CueHeader) (code : ResultCode) :
    SamePatch s (openSlot d lead i h code s).state := by
  unfold Machine.openSlot divergedOpen replaceSlot absorb
  dsimp only
  repeat' split
  all_goals exact .of_same rfl rfl rfl rfl rfl

theorem SamePatch.takeRelease (d : Desk) (p : Fin 4) : SamePatch s (s.takeRelease d p) := by
  obtain h | h := State.takeRelease_cases d p <;> rw [h]
  · exact .of_beside (s.modPlayback_beside p _)
  · exact .of_beside ((s.modPlayback_beside p _).trans (State.plainStart_beside _ _ _ _))

section
variable (l : Link) (body : List Byte) (role : Role) (s : State)

theorem decideCueOpen_samePatch : SamePatch s (decideCueOpen l body role s).state := by
  unfold decideCueOpen
  repeat' split
  any_goals exact .refl s
  · exact (SamePatch.of_fills (s.endFill_only _)).trans (.openSlot _ _ _ _ _)

theorem decideGo_samePatch : SamePatch s (decideGo l body role s).state := by
  unfold decideGo
  repeat' split
  any_goals exact .refl s
  all_goals refine .refuseFirst _ ?_
  any_goals exact .refl s
  · exact .of_beside (State.takeGo_beside _ _ _ _ _)

theorem decideBack_samePatch : SamePatch s (decideBack l body role s).state := by
  unfold decideBack
  repeat' split
  any_goals exact .refl s
  all_goals refine .refuseFirst _ ?_
  any_goals exact .refl s
  next p _ _ _ _ _ => exact .of_beside ((s.modPlayback_beside p _).trans (State.plainStart_beside _ p _ _))

theorem decideManual_samePatch : SamePatch s (decideManual l body role s).state := by
  unfold decideManual
  repeat' split
  any_goals exact .refl s
  · exact .refuseFirst _ (.of_beside (State.plainStart_beside _ _ _ _))

theorem decideRelease_samePatch : SamePatch s (decideRelease l body role s).state := by
  unfold decideRelease
  repeat' split
  · exact .refl s
  · exact .refl s
  · exact .refl s
  · refine .refuseFirst _ ?_
    rw [answer_state]
    exact .takeRelease _ _

theorem decideHolds_samePatch (b : Bool) : SamePatch s (decideHolds b l body role s).state := by
  unfold decideHolds
  repeat' split
  any_goals exact .refl s
  · exact .setHolds _ b

/-- A select only begins a rebuild (R86). -/
theorem decideBankSelect_samePatch : SamePatch s (decideBankSelect l body role s).state := by
  unfold decideBankSelect
  repeat' split
  any_goals exact .refl s
  next d _ _ n _ =>
    have begun : SamePatch s { s with rebuild := some ⟨n, some d, false⟩ } := ⟨rfl, rfl, rfl, nofun, fun _ => rfl⟩
    exact .refuseFirst _ begun

theorem decideSave_samePatch : SamePatch s (decideSave l body role s).state := by
  unfold decideSave
  repeat' split
  any_goals exact .refl s
  · exact .refuseFirst _ (SamePatch.trans (.invalidate _) (.of_same rfl rfl rfl rfl rfl))

end

/-! ### The edits and the end of a rebuild keep the patch unit legal (R82 to R85, R88) -/

theorem State.bank_setBank (s : State) (n m : Fin 4) (b : List PatchEntry) : (s.setBank n b).bank m = if n = m then b else s.bank m :=
  Table.get_set _ _ _ _

namespace State.PatchLegal

/-- Another bank than the live one written. -/
theorem setBank (legal : s.PatchLegal) {n : Fin 4} {b : List PatchEntry} (hb : BankLegal b) (idle : s.liveBank ≠ n) :
    (s.setBank n b).PatchLegal where
  banks m := by
    rw [State.bank_setBank]
    split
    · exact hb
    · exact legal.banks m
  stored := legal.stored
  map_live := by
    rw [State.bank_setBank, State.setBank_liveBank, if_neg idle.symm]
    exact legal.map_live

/-- A PATCH_SET: the feeder changed in the live map is the entry changed in the live bank. -/
theorem patch (legal : s.PatchLegal) {n : Fin 4} {c : Fin 512} {d : Fin 768} {percent : Nat} (percent_le : percent ≤ 100)
    (room : percent ≠ 0 → (∀ e ∈ s.bank n, ¬ (e.channel = c ∧ e.circuit = d)) → (s.bank n).length < Config.bankEntries) :
    (s.patch n c d percent).PatchLegal := by
  have edited : BankLegal (patchBank c d percent (s.bank n)) := (legal.banks n).patchBank percent_le room
  unfold State.patch
  dsimp only
  by_cases live : s.liveBank = n
  case neg =>
    rw [if_neg (by simp [live])]
    exact legal.setBank edited live
  by_cases ended : s.rebuild = none
  · rw [if_pos (by simp [live, State.rebuilding, ended])]
    refine ⟨fun m => ?_, legal.stored, fun _ k => ?_⟩
    · show BankLegal ((s.setBank n _).bank m)
      rw [State.bank_setBank]
      split
      · exact edited
      · exact legal.banks m
    · show (s.liveMap.modify d _).get k = feedersOf ((s.setBank n _).bank s.liveBank) k
      rw [State.bank_setBank, if_pos live.symm, Table.get_modify, legal.map_live ended, legal.map_live ended, live]
      by_cases here : d = k
      · rw [if_pos here, ← here, feedersOf_patchBank (legal.banks n).ordered]
      · rw [if_neg here, feedersOf_patchBank_other (Ne.symm here)]
  · rw [if_neg (by simp [State.rebuilding, ended])]
    refine ⟨fun m => ?_, legal.stored, fun h => absurd h ended⟩
    rw [State.bank_setBank]
    split
    · exact edited
    · exact legal.banks m

end State.PatchLegal

/-- The patch unit as a rebuild of bank `n` ends (R88): the map made of that bank, which is live. -/
def State.rebuilt (s : State) (n : Fin 4) : State :=
  { s with liveMap := mapOf (s.bank n), liveBank := n, rebuild := none }

theorem State.endRebuild_idle (h : s.rebuild = none) : s.endRebuild = s := by
  unfold State.endRebuild
  rw [h]

theorem State.endRebuild_eq {r : Rebuild} (h : s.rebuild = some r) : s.endRebuild =
    let v := match r.replyTo with
      | some d => (s.rebuilt r.bank).answerTimed d .ok
      | none => s.rebuilt r.bank
    if r.cold then v.firstFrames else v := by
  unfold State.endRebuild
  rw [h]
  rfl

namespace State.PatchLegal

theorem rebuilt (legal : s.PatchLegal) (n : Fin 4) : (s.rebuilt n).PatchLegal :=
  ⟨legal.banks, legal.stored, fun _ k => Table.get_tabulate _ k⟩

theorem endRebuild (legal : s.PatchLegal) : s.endRebuild.PatchLegal := by
  have framed {v : State} (h : v.PatchLegal) : v.firstFrames.PatchLegal := h.same (.of_same rfl rfl rfl rfl rfl)
  rcases h : s.rebuild with _ | ⟨n, _ | d, _ | _⟩
  · rw [State.endRebuild_idle h]
    exact legal
  all_goals rw [State.endRebuild_eq h]
  · exact legal.rebuilt n
  · exact framed (legal.rebuilt n)
  · exact (legal.rebuilt n).same (.answerTimed d _)
  · exact framed ((legal.rebuilt n).same (.answerTimed d _))

/-- A save of a bank stores a legal working bank. -/
theorem storeWorking (legal : s.PatchLegal) (cls : SaveClass) : (s.storeWorking cls).PatchLegal := by
  cases cls with
  | rig => exact legal.same (.of_same rfl rfl rfl rfl rfl)
  | bank n =>
    refine ⟨legal.banks, fun m => ?_, legal.map_live⟩
    show BankLegal ((s.storedBanks.set n ⟨true, s.bank n⟩).get m).content
    rw [Table.get_set]
    split
    · exact legal.banks n
    · exact legal.stored m

theorem saveEnd (legal : s.PatchLegal) : s.saveEnd.PatchLegal := by
  unfold State.saveEnd
  split
  · exact legal
  · next x _ =>
    have ended : ({ s.storeWorking x.cls with saving := none } : State).PatchLegal :=
      (legal.storeWorking x.cls).same (.of_same rfl rfl rfl rfl rfl)
    exact ended.same (.answerTimed _ _)

theorem assertReset (legal : s.PatchLegal) : s.assertReset.PatchLegal := by
  have empty (n : Fin 4) : s.assertReset.bank n = [] := Table.get_fill _ n
  refine ⟨fun n => ?_, legal.stored, fun _ k => ?_⟩
  · rw [empty]
    exact .nil
  · rw [empty]
    exact Table.get_fill _ k

/-- The loaded banks are stored ones or empty, and the rebuild makes the map (R179). -/
theorem coldStart (legal : s.PatchLegal) : s.coldStart.PatchLegal := by
  refine ⟨fun n => ?_, legal.stored, nofun⟩
  have loaded : s.coldStart.bank n = s.loadedBank n := Table.get_tabulate _ n
  rw [loaded]
  unfold State.loadedBank
  dsimp only
  split
  · exact legal.stored n
  · exact .nil

/-! ### One step -/

variable (l : Link) (body : List Byte) (role : Role)

theorem decidePatchSet (legal : s.PatchLegal) : (decidePatchSet l body role s).state.PatchLegal := by
  unfold Machine.decidePatchSet
  repeat' split
  any_goals exact legal
  next f _ _ _ _ _ _ _ n c d _ _ _ =>
    refine refuseFirst_keeps _ legal fun pass => ?_
    refine legal.patch (Nat.min_le_right _ _) fun some_percent new => ?_
    have not_full := pass (_, .listFull) (.tail _ (.tail _ (.tail _ (.head _))))
    have none_held : (s.bank n).any (·.isPair c d) = false := by
      rw [← Bool.not_eq_true, hasPair_iff]
      exact fun ⟨e, he, same⟩ => new e he same
    have percent : f.percent ≠ 0 := fun h => some_percent (by rw [h]; rfl)
    simpa [none_held, percent] using not_full

/-- The checks BANK_CLEAR and BANK_COPY make let nothing be written to the live bank. -/
theorem overwrite (legal : s.PatchLegal) {n : Fin 4} {b : List PatchEntry} (hb : BankLegal b) (lead : Bool × ResultCode)
    (code : ResultCode) :
    (refuseFirst (lead :: overwriteChecks s n) s (answer code (s.setBank n b))).state.PatchLegal := by
  refine refuseFirst_keeps _ legal fun pass => ?_
  have not_live := pass (_, .bankLive) (.tail _ (.tail _ (.head _)))
  exact legal.setBank hb (of_decide_eq_false not_live)

theorem decideBankClear (legal : s.PatchLegal) : (decideBankClear l body role s).state.PatchLegal := by
  unfold Machine.decideBankClear
  repeat' split
  any_goals exact legal
  · exact legal.overwrite .nil _ _

theorem decideBankCopy (legal : s.PatchLegal) : (decideBankCopy l body role s).state.PatchLegal := by
  unfold Machine.decideBankCopy
  repeat' split
  any_goals exact legal
  · exact legal.overwrite (legal.banks _) _ _

theorem requestRow (l : Link) (q : Request) {decision : Role → State → Verdict} (legal : s.PatchLegal)
    (hd : ∀ role s, s.PatchLegal → (decision role s).state.PatchLegal) :
    (Machine.requestRow l q decision s).PatchLegal := by
  have received : (s.receive l q).PatchLegal := legal.same (.of_same rfl rfl rfl rfl rfl)
  obtain ⟨-, h⟩ | ⟨-, h⟩ | ⟨-, -, h⟩ | ⟨-, -, h⟩ := requestRow_cases s l q decision <;> rw [h]
  · exact legal
  · exact (hd _ _ legal).same (.settle l _)
  · exact (hd _ _ received).same (.settle l _)
  · exact received

/-- A request row whose decision leaves the patch unit alone. -/
theorem otherRow (l : Link) (q : Request) {decision : Role → State → Verdict} (legal : s.PatchLegal)
    (hd : ∀ role s, SamePatch s (decision role s).state) : (Machine.requestRow l q decision s).PatchLegal :=
  legal.requestRow l q fun role _ h => h.same (hd role _)

/-- Whatever the command, the patch unit stays legal. -/
theorem exec {c : Instr} (legal : s.PatchLegal) (h : Machine.exec c s = .next t) : t.PatchLegal := by
  cases c <;> obtain rfl := Host.Outcome.next.inj h
  case patchSet => exact legal.requestRow _ _ fun _ _ => .decidePatchSet _ _ _
  case bankClear => exact legal.requestRow _ _ fun _ _ => .decideBankClear _ _ _
  case bankCopy => exact legal.requestRow _ _ fun _ _ => .decideBankCopy _ _ _
  case rebuildEnd => exact whileRunning_keeps legal legal.endRebuild
  case saveEnd => exact whileRunning_keeps legal legal.saveEnd
  case unknownKind =>
    split
    · exact legal
    · exact legal.otherRow _ _ fun _ s => .refl s
  case bankSelect => exact legal.otherRow _ _ (decideBankSelect_samePatch _ _)
  case save => exact legal.otherRow _ _ (decideSave_samePatch _ _)
  case cueOpen => exact legal.otherRow _ _ (decideCueOpen_samePatch _ _)
  case go => exact legal.otherRow _ _ (decideGo_samePatch _ _)
  case back => exact legal.otherRow _ _ (decideBack_samePatch _ _)
  case manual => exact legal.otherRow _ _ (decideManual_samePatch _ _)
  case release => exact legal.otherRow _ _ (decideRelease_samePatch _ _)
  case hold => exact legal.otherRow _ _ fun role s => decideHolds_samePatch _ _ role s true
  case resume => exact legal.otherRow _ _ fun role s => decideHolds_samePatch _ _ role s false
  -- No branch of the other requests writes a bank, the live map or the rebuild.
  case status | read | takeLead | yieldLead | linkSetup | cueMoves | cueClose | cueDrop | rate | pbLevel | playbackSetup
      | startBank | profileSet | lawLoad | park | flash | nudge | unpark | lineSetup | lookSet | lookRaise | lookLower
      | grand | rackSetup =>
    refine legal.otherRow _ _ fun role s => ?_
    simp only [decideStatus, decideRead, decideTakeLead, decideYieldLead, decideLinkSetup, decideCueMoves, decideCueClose,
      decideCueDrop, decideRate, decidePbLevel, decidePlaybackSetup, decideStartBank, decideProfileSet, State.setProfile,
      decideLawLoad, decidePark, decideFlash, setPark, decideNudge, decideUnpark, decideLineSetup, State.setupLine,
      State.edge, decideLookSet, decideRaise, decideGrand, decideRackSetup, refuseFirst]
    repeat' split
    all_goals exact .of_same rfl rfl rfl rfl rfl
  case fadeTick => exact whileRunning_keeps legal (legal.same (.of_beside s.tick_beside))
  case followDue => exact whileRunning_keeps legal (legal.same (.of_beside (State.followDue_beside _)))
  case badTelegram | linkByteReceived => exact whileRunning_keeps legal (legal.same (.handOn _ _))
  case saveWriteFailure => exact whileRunning_keeps legal (legal.same .saveFailure)
  case silenceMonitorExpiry => exact whileRunning_keeps legal (legal.same (.silence _))
  -- Nor does any branch of these events.
  case validTelegram | interByteGap | replySent | flashTimerExpiry | supplyDip | echoTimerExpiry =>
    exact whileRunning_keeps legal (legal.same (.of_same rfl rfl rfl rfl rfl))
  case debounceTimerExpiry | frameStart =>
    refine whileRunning_keeps legal (legal.same ?_)
    simp only [State.debounceExpiry, State.edge, State.frameStart]
    repeat' split
    all_goals exact .of_same rfl rfl rfl rfl rfl
  case lineInputChange =>
    refine legal.same ?_
    unfold State.inputChange
    dsimp only
    repeat' split
    all_goals exact .of_same rfl rfl rfl rfl rfl
  case resetAssert =>
    unfold State.lowerReset
    split
    · exact legal.assertReset
    · exact legal.assertReset
    · exact legal.same (.of_same rfl rfl rfl rfl rfl)
  case coldStart =>
    unfold State.startCold
    split
    · exact legal.coldStart
    · exact legal.coldStart
    · exact legal.coldStart
    · exact legal.same (.of_same rfl rfl rfl rfl rfl)
  case dipRestart =>
    unfold State.recover
    split
    · exact legal
    · exact legal
    · exact legal.same .dipRestart
    · exact legal.assertReset

end State.PatchLegal

/-- Settles O43: an edit changes the map as it changes the live bank (`State.PatchLegal.patch`), the end of a rebuild makes the map
anew (`State.PatchLegal.rebuilt`), and nothing else touches both (`SamePatch`). -/
theorem everyStepKeepsTheLiveMapOfTheLiveBank : Obligations.EveryStepKeepsTheLiveMapOfTheLiveBank := by
  intro s t legal h
  unfold step at h
  split at h
  · cases h
    exact legal
  · next rest _ =>
    have taken : SamePatch s { s with pending := rest } := .of_same rfl rfl rfl rfl rfl
    exact (legal.same taken).exec h

end Sys2Proof.Machine
end

section
namespace Sys2Proof.Machine

variable (s : State) {l : Link}

/-! ### The checks of the edits (R82, R84, R85, R92) -/

theorem State.rebuilding_iff : s.rebuilding = true ↔ s.rebuild ≠ none := Option.isSome_iff_ne_none

theorem State.savingBank_iff (n : Fin 4) : s.savingBank n = true ↔ s.saving.map (·.cls) = some (.bank n) := decide_eq_true_iff

theorem State.rebuildingBank_iff (n : Fin 4) : s.rebuildingBank n = true ↔ s.rebuild.map (·.bank) = some n :=
  decide_eq_true_iff

/-- A PATCH_SET waits for a rebuild of its bank or of the live bank (R82). -/
theorem State.patchBusy_iff (n : Fin 4) :
    (s.rebuilding && (decide (s.liveBank = n) || s.rebuildingBank n)) = true ↔
      s.rebuild.isSome ∧ (s.liveBank = n ∨ s.rebuild.map (·.bank) = some n) := by
  rw [Bool.and_eq_true, Bool.or_eq_true, decide_eq_true_eq, s.rebuildingBank_iff]
  rfl

/-- A PATCH_SET finds its bank full: it would add a pair to 1024 (R82). -/
theorem bankFull_iff (p : Byte) (b : List PatchEntry) (c : Fin 512) (d : Fin 768) :
    (decide (p.toNat ≠ 0) && !b.any (·.isPair c d) && decide (Config.bankEntries ≤ b.length)) = true ↔
      p ≠ 0 ∧ (∀ e ∈ b, ¬ (e.channel = c ∧ e.circuit = d)) ∧ 1024 ≤ b.length := by
  have percent : p.toNat ≠ 0 ↔ p ≠ 0 := not_congr (BitVec.toNat_inj (y := 0))
  have new : b.any (·.isPair c d) = false ↔ ∀ e ∈ b, ¬ (e.channel = c ∧ e.circuit = d) := by
    rw [← Bool.not_eq_true, hasPair_iff, not_exists]
    exact forall_congr' fun e => not_and
  rw [Bool.and_eq_true, Bool.and_eq_true, decide_eq_true_eq, decide_eq_true_eq, Bool.not_eq_true', percent, new, and_assoc]
  rfl

theorem okOr_over (n limit : Nat) : okOr (decide (limit < n)) = if n ≤ limit then .ok else .clamped := by
  unfold okOr
  simp only [decide_eq_true_eq, ← Nat.not_le, ite_not]

/-- The live map is edited with the live bank outside a rebuild (R83). -/
theorem State.patch_eq (n : Fin 4) (c : Fin 512) (d : Fin 768) (percent : Nat) : s.patch n c d percent =
    if s.liveBank = n ∧ s.rebuild = none then
      { s.setBank n (patchBank c d percent (s.bank n)) with liveMap := s.liveMap.modify d (patchFeeders c percent) }
    else s.setBank n (patchBank c d percent (s.bank n)) := by
  have live : (decide (s.liveBank = n) && !s.rebuilding) = true ↔ s.liveBank = n ∧ s.rebuild = none := by
    rw [Bool.and_eq_true, decide_eq_true_eq, Bool.not_eq_true', ← Bool.not_eq_true, s.rebuilding_iff, not_not]
  exact if_congr live rfl rfl

/-- Settles O40: the fields, the checks in the order of R82, and the edit; what a bank then holds is `mem_patchBank`. -/
theorem patchSetFollowsItsTable : Obligations.PatchSetFollowsItsTable := by
  refine ⟨fun s l tag b c1 c0 d1 d0 p hh => ?_, fun b c k percent x _ => mem_patchBank⟩
  refine congrArg Host.Outcome.next ((requestRow_atHead _ hh).trans ?_)
  rcases hd : deskOf l with _ | d
  · simp only [decidePatchSet, readPatchSet, hd, settle_answer]
  simp only [decidePatchSet, readPatchSet, hd, be16]
  rcases numbered 4 b.toNat with _ | n
  · rfl
  rcases numbered 512 (c1.toNat * 256 + c0.toNat) with _ | c
  · rfl
  rcases numbered 768 (d1.toNat * 256 + d0.toNat) with _ | k
  · rfl
  simp only [settle_refuseFirst_lead s hd, settle_refuseFirst_cons, s.patchBusy_iff, s.savingBank_iff, bankFull_iff,
    refuseFirst_nil, settle_answer, okOr_over, s.patch_eq]

/-- BANK_CLEAR of its bank and BANK_COPY of its destination past the role (R84, R85). -/
theorem settle_overwriteChecks (n : Fin 4) (taken : Verdict) : settle l (refuseFirst (overwriteChecks s n) s taken) =
    if s.rebuild.map (·.bank) = some n then s.answered l .bankBusy
    else if s.liveBank = n then s.answered l .bankLive
    else if s.saving.map (·.cls) = some (.bank n) then s.answered l .storeBusy
    else settle l taken := by
  unfold overwriteChecks
  simp only [settle_refuseFirst_cons, s.rebuildingBank_iff, s.savingBank_iff, decide_eq_true_eq, refuseFirst_nil]

/-- Settles O41: each row's fields, then its checks in order. -/
theorem bankClearCopyAndStartFollowTheirRules : Obligations.BankClearCopyAndStartFollowTheirRules := by
  intro s l tag x y overwrite
  refine ⟨fun hh => ?_, fun hh => ?_, fun hh => ?_⟩ <;>
    refine congrArg Host.Outcome.next ((requestRow_atHead _ hh).trans ?_)
  · rcases hd : deskOf l with _ | d
    · simp only [decideBankClear, readByte, hd, settle_answer]
    simp only [decideBankClear, readByte, hd]
    rcases numbered 4 x.toNat with _ | n
    · rfl
    simp only [settle_refuseFirst_lead s hd, settle_overwriteChecks, settle_answer, overwrite]
  · rcases hd : deskOf l with _ | d
    · simp only [decideBankCopy, readBytes2, hd, settle_answer]
    simp only [decideBankCopy, readBytes2, hd]
    rcases numbered 4 x.toNat with _ | m
    · rfl
    rcases numbered 4 y.toNat with _ | n
    · rfl
    simp only [settle_refuseFirst_lead s hd, settle_overwriteChecks, settle_answer, overwrite]
  · rcases hd : deskOf l with _ | d
    · simp only [decideStartBank, readByte, hd, settle_answer]
    simp only [decideStartBank, readByte, hd]
    rcases numbered 4 x.toNat with _ | n
    · rfl
    simp only [settle_refuseFirst_lead s hd, settle_refuseFirst_cons, savingRig_iff, refuseFirst_nil, settle_answer]
    rfl

/-! ### BANK_SELECT and the end of a rebuild (R86 to R88) -/

theorem settle_decideBankSelect (x : Byte) : settle l (decideBankSelect l [x] (s.role l) s) =
    match deskOf l, numbered 4 x.toNat with
    | none, _ => s.answered l .role
    | some _, none => s.answered l .badField
    | some d, some n =>
      if s.lead ≠ some d then s.answered l .notLead
      else if s.rebuild.isSome then s.answered l .bankBusy
      else if s.runList ≠ [] then s.answered l .cuesRunning
      else if s.saving.map (·.cls) = some (.bank n) then s.answered l .storeBusy
      else State.setPort { s with rebuild := some ⟨n, some d, false⟩ } l { s.port l with head := .timed } := by
  rcases hd : deskOf l with _ | d
  · simp only [decideBankSelect, readByte, hd, settle_answer]
  simp only [decideBankSelect, readByte, hd]
  rcases numbered 4 x.toNat with _ | n
  · rfl
  have running : (!s.runList.isEmpty) = true ↔ s.runList ≠ [] := by simp
  simp only [settle_refuseFirst_lead s hd, settle_refuseFirst_cons, running, s.savingBank_iff, refuseFirst_nil]
  rfl

/-- The first frames of a cold start: no line's frame reads another's (R151). -/
theorem State.rack_firstFrames (k : Fin 3) : s.firstFrames.rack k =
    ⟨some (s.rig.racks.get k).period, some (s.computeFrame k), litCount (s.computeFrame k).levels, (s.computeFrame k).bytes⟩ := by
  have racks : s.firstFrames.rack k = (((s.freshFrame 0).freshFrame 1).freshFrame 2).rack k := rfl
  rw [racks, State.freshFrame, State.rack_setRack, State.freshFrame, State.rack_setRack, State.freshFrame, State.rack_setRack]
  match k with
  | 0 => rfl
  | 1 => rfl
  | 2 => rfl

/-- Settles O42: the checks of R86, and the end of a rebuild by who waits for it (`State.endRebuild_eq`). -/
theorem bankSelectAndRebuildEndFollowTheirRules : Obligations.BankSelectAndRebuildEndFollowTheirRules := by
  refine ⟨fun s l tag x hh => congrArg Host.Outcome.next ((requestRow_atHead _ hh).trans (settle_decideBankSelect s x)),
    fun s running => ?_⟩
  have ended : exec .rebuildEnd s = .next s.endRebuild := congrArg Host.Outcome.next (whileRunning_running running)
  rw [ended]
  refine ⟨fun idle => by rw [State.endRebuild_idle idle], fun n reply cold h => ?_⟩
  rw [State.endRebuild_eq h]
  refine ⟨?_, ?_, ?_⟩
  · rintro rfl rfl
    rfl
  · rintro d rfl rfl timed
    have waits : ((s.rebuilt n).port (linkOf d)).head = .timed := timed
    show Host.Outcome.next ((s.rebuilt n).answerTimed d .ok) = _
    rw [State.answerTimed, waits]
    rfl
  · rintro rfl rfl
    exact ⟨(s.rebuilt n).firstFrames, rfl, State.rack_firstFrames _, fun m => State.port_notifyAll _ m _, rfl⟩

/-! ### Frame starts (R90, R141, R148, R187) -/

theorem State.frameStart_stopped {k : Fin 3} (stopped : (s.rack k).timer = none) : s.frameStart k = s :=
  if_pos (Option.isNone_iff_eq_none.2 stopped)

theorem State.frameStart_running {k : Fin 3} (runs : (s.rack k).timer ≠ none) :
    s.frameStart k = if s.rebuilding then s.repeatFrame k else s.freshFrame k :=
  if_neg (mt Option.isNone_iff_eq_none.1 runs)

theorem State.frameStart_fresh {k : Fin 3} (runs : (s.rack k).timer ≠ none) (idle : s.rebuild = none) :
    s.frameStart k = s.freshFrame k := by
  rw [s.frameStart_running runs, if_neg fun h => s.rebuilding_iff.1 h idle]

/-- In a rebuild only the timer and the bytes sent change (R90). -/
theorem State.frameStart_repeat {k : Fin 3} (runs : (s.rack k).timer ≠ none) (busy : s.rebuild ≠ none) :
    s.frameStart k = s.setRack k { s.rack k with
      timer := some (s.rig.racks.get k).period, sent := ((s.rack k).last.map Frame.bytes).getD [] } := by
  rw [s.frameStart_running runs, if_pos (s.rebuilding_iff.2 busy)]
  rfl

/-- Settles O56: whether the line's timer runs, whether a rebuild is in flight, and what the line last sent. -/
theorem frameStartSendsOrRepeats : Obligations.FrameStartSendsOrRepeats := by
  intro s k running period bytes sent
  have started : exec (.frameStart k) s = .next (s.frameStart k) := congrArg Host.Outcome.next (whileRunning_running running)
  have again {last : Option Frame} (h : (s.rack k).last = last) :
      ((s.rack k).last.map Frame.bytes).getD [] = (last.map sent).getD [] := by
    rw [h]
    rfl
  rw [started]
  refine ⟨fun stopped => ?_, fun runs idle => ?_, fun f runs busy last => ?_, fun runs busy last => ?_⟩
  · rw [s.frameStart_stopped stopped]
  · rw [s.frameStart_fresh runs idle]
    rfl
  · rw [s.frameStart_repeat runs busy, again last]
    rfl
  · rw [s.frameStart_repeat runs busy, again last]
    rfl

end Sys2Proof.Machine
end

section
namespace Sys2Proof.Machine

variable {s t u : State}

/-! ### What leaves the rig record alone -/

/-- From `s` to `t` the working rig record, its law-fault count and the content of the stored one stand. -/
structure SameRig (s t : State) : Prop where
  rig : t.rig = s.rig
  faults : t.lawFaults = s.lawFaults
  stored : t.storedRig.content = s.storedRig.content

theorem SameRig.refl (s : State) : SameRig s s := ⟨rfl, rfl, rfl⟩

theorem SameRig.trans (h : SameRig s t) (k : SameRig t u) : SameRig s u :=
  ⟨k.rig.trans h.rig, k.faults.trans h.faults, k.stored.trans h.stored⟩

theorem State.RigLegal.same (legal : s.RigLegal) (h : SameRig s t) : t.RigLegal where
  working := h.rig ▸ legal.working
  stored := h.stored ▸ legal.stored
  faults := by rw [h.faults, h.rig, legal.faults]

theorem SameRig.of_beside (h : SameBeside s t) : SameRig s t := by
  rw [h.1]
  exact ⟨rfl, rfl, rfl⟩

theorem SameRig.of_fills (h : FillsOnly s t) : SameRig s t := by
  rw [h.2.2]
  exact ⟨rfl, rfl, rfl⟩

theorem SameRig.settle (l : Link) (v : Verdict) : SameRig v.state (settle l v) := by
  cases v <;> exact ⟨rfl, rfl, rfl⟩

theorem SameRig.refuseFirst (checks : List (Bool × ResultCode)) {taken : Verdict} (h : SameRig s taken.state) :
    SameRig s (refuseFirst checks s taken).state :=
  refuseFirst_keeps checks (.refl s) fun _ => h

theorem SameRig.answerTimed (d : Desk) (code : ResultCode) : SameRig s (s.answerTimed d code) := by
  unfold State.answerTimed
  split <;> exact ⟨rfl, rfl, rfl⟩

/-- An item made INVALID keeps its content. -/
theorem SameRig.invalidate (cls : SaveClass) : SameRig s (s.invalidate cls) := by
  cases cls <;> exact ⟨rfl, rfl, rfl⟩

theorem SameRig.saveFailure : SameRig s s.saveFailure := by
  unfold State.saveFailure
  split
  · exact .refl s
  · next x _ =>
    have ended : SameRig s { s.invalidate x.cls with saving := none } := (SameRig.invalidate x.cls).trans ⟨rfl, rfl, rfl⟩
    exact ended.trans (.answerTimed _ _)

theorem SameRig.dipRestart : SameRig s s.dipRestart := by
  have save := State.abandonSave_abandoned s.resumed.restartMonitors
  have stored : s.dipRestart.storedRig = s.resumed.restartMonitors.abandonSave.storedRig := rfl
  rw [s.dipRestart_others]
  refine ⟨rfl, rfl, ?_⟩
  rw [stored, save.rig]
  rfl

theorem SameRig.setHolds (ps : List (Fin 4)) (b : Bool) : SameRig s (s.setHolds ps b) := by
  rw [s.setHolds_eq]
  exact ⟨rfl, rfl, rfl⟩

theorem SameRig.handOn (l : Link) (x : Receiver × List Request) : SameRig s (s.handOn l x) := by
  have arrived (qs : List Request) (v : State) : SameRig v (qs.foldl (fun v q => v.arrive l q) v) := by
    induction qs generalizing v with
    | nil => exact .refl v
    | cons q qs ih => exact SameRig.trans (t := v.arrive l q) ⟨rfl, rfl, rfl⟩ (ih _)
  exact SameRig.trans (t := s.modPort l fun p => { p with receiver := x.1 }) ⟨rfl, rfl, rfl⟩ (arrived x.2 _)

theorem SameRig.leadSilent (d : Desk) : SameRig s (s.leadSilent d) := by
  unfold State.leadSilent
  repeat' split
  all_goals exact ⟨rfl, rfl, rfl⟩

theorem SameRig.silence (l : Link) : SameRig s (s.silence l) := by
  have fallen : SameRig s (s.modPort l Port.fallSilent) := ⟨rfl, rfl, rfl⟩
  unfold State.silence
  dsimp only
  repeat' split
  · exact .refl s
  · exact (fallen.trans (.leadSilent _)).trans (.of_fills (State.endFill_only _ _))
  · exact fallen.trans ⟨rfl, rfl, rfl⟩

theorem SameRig.endRebuild : SameRig s s.endRebuild := by
  have framed (v : State) : SameRig v v.firstFrames := ⟨rfl, rfl, rfl⟩
  have rebuilt (n : Fin 4) : SameRig s (s.rebuilt n) := ⟨rfl, rfl, rfl⟩
  rcases h : s.rebuild with _ | ⟨n, _ | d, _ | _⟩
  · rw [State.endRebuild_idle h]
    exact .refl s
  all_goals rw [State.endRebuild_eq h]
  · exact rebuilt n
  · exact (rebuilt n).trans (framed _)
  · exact (rebuilt n).trans (.answerTimed d _)
  · exact ((rebuilt n).trans (.answerTimed d _)).trans (framed _)

theorem SameRig.openSlot (d : Desk) (lead : Bool) (i : Fin 32) (h : CueHeader) (code : ResultCode) :
    SameRig s (openSlot d lead i h code s).state := by
  unfold Machine.openSlot divergedOpen replaceSlot absorb
  dsimp only
  repeat' split
  all_goals exact ⟨rfl, rfl, rfl⟩

theorem SameRig.takeRelease (d : Desk) (p : Fin 4) : SameRig s (s.takeRelease d p) := by
  obtain h | h := State.takeRelease_cases d p <;> rw [h]
  · exact .of_beside (s.modPlayback_beside p _)
  · exact .of_beside ((s.modPlayback_beside p _).trans (State.plainStart_beside _ _ _ _))

section
variable (l : Link) (body : List Byte) (role : Role) (s : State)

theorem decideCueOpen_sameRig : SameRig s (decideCueOpen l body role s).state := by
  unfold decideCueOpen
  repeat' split
  any_goals exact .refl s
  · exact (SameRig.of_fills (s.endFill_only _)).trans (.openSlot _ _ _ _ _)

theorem decideGo_sameRig : SameRig s (decideGo l body role s).state := by
  unfold decideGo
  repeat' split
  any_goals exact .refl s
  all_goals refine .refuseFirst _ ?_
  any_goals exact .refl s
  · exact .of_beside (State.takeGo_beside _ _ _ _ _)

theorem decideBack_sameRig : SameRig s (decideBack l body role s).state := by
  unfold decideBack
  repeat' split
  any_goals exact .refl s
  all_goals refine .refuseFirst _ ?_
  any_goals exact .refl s
  next p _ _ _ _ _ => exact .of_beside ((s.modPlayback_beside p _).trans (State.plainStart_beside _ p _ _))

theorem decideManual_sameRig : SameRig s (decideManual l body role s).state := by
  unfold decideManual
  repeat' split
  any_goals exact .refl s
  · exact .refuseFirst _ (.of_beside (State.plainStart_beside _ _ _ _))

theorem decideRelease_sameRig : SameRig s (decideRelease l body role s).state := by
  unfold decideRelease
  repeat' split
  any_goals exact .refl s
  · refine .refuseFirst _ ?_
    rw [answer_state]
    exact .takeRelease _ _

theorem decideHolds_sameRig (b : Bool) : SameRig s (decideHolds b l body role s).state := by
  unfold decideHolds
  repeat' split
  any_goals exact .refl s
  · exact .setHolds _ b

theorem decideSave_sameRig : SameRig s (decideSave l body role s).state := by
  unfold decideSave
  repeat' split
  any_goals exact .refl s
  · exact .refuseFirst _ (SameRig.trans (.invalidate _) ⟨rfl, rfl, rfl⟩)

end

/-! ### The values of a body that has passed its checks (R98, R105, R107, R131) -/

theorem words_le_full (body : List Byte) : ∀ v ∈ words body, v ≤ Config.full := by
  induction body using words.induct with
  | case1 a b rest ih =>
    rw [words]
    exact List.forall_mem_cons.2 ⟨be16_le_full a b, ih⟩
  | case2 body short =>
    rw [words]
    · simp
    · exact short

theorem readLawLoad_le_full {body : List Byte} {i : Nat} {p : Points} (h : readLawLoad body = some (i, p)) :
    ∀ v ∈ p.cells, v ≤ Config.full := by
  unfold readLawLoad at h
  split at h
  · split at h
    · cases h
      exact words_le_full _
    · cases h
  · cases h

/-- The check of LAW_LOAD passes the lists that never fall (R107). -/
theorem falls_eq_false_iff {l : List Nat} : falls l = false ↔ l.Pairwise (· ≤ ·) := by
  rw [← List.isChain_iff_pairwise]
  induction l using falls.induct with
  | case1 a b rest ih => rw [falls, List.isChain_cons_cons, Bool.or_eq_false_iff, ih, decide_eq_false_iff_not, Nat.not_lt]
  | case2 l short =>
    match l, short with
    | [], _ | [_], _ => simp [falls]
    | a :: b :: rest, short => exact (short a b rest rfl).elim

theorem readProfileSet_topSet_le {body : List Byte} {f : ProfileFields} (h : readProfileSet body = some f) :
    f.topSet ≤ Config.full := by
  unfold readProfileSet at h
  split at h
  · cases h
    exact be16_le_full _ _
  · cases h

theorem readLookSet_level {body : List Byte} {f : LookFields} (h : readLookSet body = some f) :
    ∀ x ∈ f.entries, x.2 ≤ Config.full := by
  unfold readLookSet at h
  split at h
  · split at h
    · cases h
      exact wordPairs_level _
    · cases h
  · cases h

/-- A look that has passed the checks of LOOK_SET lies within R131. -/
theorem sortLook_legal {priority : Nat} {pairs : List (Nat × Nat)} {es : List LookEntry} (he : checkEntries pairs = some es)
    (levels : ∀ x ∈ pairs, x.2 ≤ Config.full) (hp : priority ≤ 3) (length : es.length ≤ Config.lookEntries)
    (once : (es.map (·.circuit)).Nodup) : Look.Legal ⟨priority, sortLook es⟩ := by
  refine ⟨hp, (sortLook_perm es).length_eq.trans_le length, sortLook_ascending once, fun e mem => ?_⟩
  obtain rfl := checkEntries_eq_some.1 he
  exact levels _ (List.mem_map_of_mem ((sortLook_perm es).subset mem))

theorem clampTo_mem {lo hi : Nat} (range : lo ≤ hi) (n : Nat) : lo ≤ clampTo lo hi n ∧ clampTo lo hi n ≤ hi := by
  unfold clampTo
  omega

/-! ### The writes of the rig record keep it legal -/

/-- A cell written with what lies in the range of all cells. -/
theorem Table.get_set_legal {n : Nat} {α : Type} {P : α → Prop} {x : Table n α} (h : ∀ j, P (x.get j)) (i : Fin n) {a : α}
    (ha : P a) (j : Fin n) : P ((x.set i a).get j) := by
  rw [Table.get_set]
  split
  · exact ha
  · exact h j

theorem length_loadLaw_le {laws : List Points} {i : Nat} {p : Points} (h : laws.length ≤ 8) (hi : i ≤ 7) (in_order : i ≤ laws.length) :
    (loadLaw laws i p).length ≤ 8 := by
  unfold loadLaw
  split
  · rwa [List.length_set]
  · rw [List.length_append, List.length_singleton]
    omega

theorem mem_loadLaw {laws : List Points} {i : Nat} {p q : Points} (h : q ∈ loadLaw laws i p) : q ∈ laws ∨ q = p := by
  unfold loadLaw at h
  split at h
  · exact List.mem_or_eq_of_mem_set h
  · simpa using h

namespace RigRecord.Legal

variable {r : RigRecord}

theorem setProfile (legal : r.Legal) (c : Fin 768) {f : Profile} (hf : f.Legal) :
    RigRecord.Legal { r with profiles := r.profiles.set c f } :=
  { legal with profiles := Table.get_set_legal legal.profiles c hf }

theorem setLaws (legal : r.Legal) {i : Nat} {p : Points} (hp : p.Legal) (hi : i ≤ 7) (in_order : i ≤ r.laws.length) :
    RigRecord.Legal { r with laws := loadLaw r.laws i p } :=
  { legal with
    laws_le := length_loadLaw_le legal.laws_le hi in_order
    laws := fun q hq => (mem_loadLaw hq).elim (legal.laws q) fun e => e ▸ hp }

theorem setLook (legal : r.Legal) (k : Fin 4) {x : Look} (hx : x.Legal) :
    RigRecord.Legal { r with looks := r.looks.set k x } :=
  { legal with looks := Table.get_set_legal legal.looks k hx }

theorem setLine (legal : r.Legal) (n : Fin 4) {x : LineSettings} (hx : 10 ≤ x.debounce ∧ x.debounce ≤ 250) :
    RigRecord.Legal { r with lines := r.lines.set n x } :=
  { legal with lines := Table.get_set_legal (P := fun x : LineSettings => 10 ≤ x.debounce ∧ x.debounce ≤ 250) legal.lines n hx }

theorem setLinkSetup (legal : r.Legal) (a b c : Nat) (failover : Bool) :
    RigRecord.Legal { r with linkSetup := ⟨clampLimit a, clampLimit b, clampLimit c, failover⟩ } :=
  { legal with
    limits := by
      have held (n : Nat) : 1 ≤ clampLimit n ∧ clampLimit n ≤ 63 := clampTo_mem (by decide) n
      simp [held] }

theorem setRack (legal : r.Legal) (k : Fin 3) {x : RackSetup} (hx : 20 ≤ x.period ∧ x.period ≤ 50) :
    RigRecord.Legal { r with racks := r.racks.set k x } :=
  { legal with racks := Table.get_set_legal (P := fun x : RackSetup => 20 ≤ x.period ∧ x.period ≤ 50) legal.racks k hx }

theorem setPlayback (legal : r.Legal) (p : Fin 4) {x : PlaybackSetup}
    (hx : x.backTime ≤ Config.lastTenths ∧ x.releaseTime ≤ Config.lastTenths) :
    RigRecord.Legal { r with playbacks := r.playbacks.set p x } :=
  { legal with
    playbacks := Table.get_set_legal
      (P := fun x : PlaybackSetup => x.backTime ≤ Config.lastTenths ∧ x.releaseTime ≤ Config.lastTenths) legal.playbacks p hx }

theorem setStartBank (legal : r.Legal) (n : Fin 4) : RigRecord.Legal { r with startBank := n } :=
  { legal with }

/-- The defaults of R173 lie in their ranges. -/
theorem default : RigRecord.default.Legal where
  profiles c := by rw [RigRecord.default, Table.get_fill]; exact ⟨by decide, by decide, by decide, by decide⟩
  laws_le := by decide
  laws := by simp [RigRecord.default]
  looks k := by rw [RigRecord.default, Table.get_fill]; exact ⟨by decide, by decide, by decide, by decide⟩
  lines n := by rw [RigRecord.default, Table.get_fill]; decide
  limits := by decide
  racks k := by rw [RigRecord.default, Table.get_fill]; decide
  playbacks p := by rw [RigRecord.default, Table.get_fill]; decide

end RigRecord.Legal

namespace State.RigLegal

variable {r : RigRecord} (l : Link) (body : List Byte) (role : Role)

/-- A record with the profiles and laws as they stand leaves the law-fault count right. -/
theorem setRig (legal : s.RigLegal) (hr : r.Legal) (profiles : r.profiles = s.rig.profiles) (laws : r.laws = s.rig.laws) :
    (s.setRig r).RigLegal :=
  ⟨hr, legal.stored, by rw [State.setRig_lawFaults, legal.faults, ← profiles, ← laws]; rfl⟩

/-- A change to the profiles or laws recounts the faults (R101). -/
theorem setProfiles (legal : s.RigLegal) (hr : r.Legal) : (s.setProfiles r).RigLegal := ⟨hr, legal.stored, rfl⟩

theorem setProfile (legal : s.RigLegal) (c : Fin 768) {f : Profile} (hf : f.Legal) : (s.setProfile c f).RigLegal := by
  have written := legal.setProfiles (legal.working.setProfile c hf)
  unfold State.setProfile
  dsimp only
  split
  · exact written.same ⟨rfl, rfl, rfl⟩
  · exact written

theorem setupLine (legal : s.RigLegal) (n : Fin 4) {x : LineSettings} (hx : 10 ≤ x.debounce ∧ x.debounce ≤ 250) :
    (s.setupLine n x).RigLegal := by
  have written := legal.setRig (legal.working.setLine n hx) rfl rfl
  unfold State.setupLine State.edge
  dsimp only
  repeat' split
  all_goals exact written.same ⟨rfl, rfl, rfl⟩

theorem decideProfileSet (legal : s.RigLegal) : (decideProfileSet l body role s).state.RigLegal := by
  unfold Machine.decideProfileSet
  repeat' split
  any_goals exact legal
  next f read _ _ _ _ c _ =>
    refine refuseFirst_keeps _ legal fun pass => legal.setProfile c ?_
    have fields := pass (_, .badField) (.head _)
    have order := pass (_, .badField) (.tail _ (.tail _ (.head _)))
    simp only [Bool.or_eq_false_iff, decide_eq_false_iff_not, Nat.not_lt] at fields order
    obtain ⟨page, index⟩ := fields
    exact ⟨page, index, order, readProfileSet_topSet_le read⟩

theorem decideLawLoad (legal : s.RigLegal) : (decideLawLoad l body role s).state.RigLegal := by
  unfold Machine.decideLawLoad
  repeat' split
  any_goals exact legal
  next i p read _ _ _ =>
    refine refuseFirst_keeps _ legal fun pass => ?_
    have index := pass (_, .badField) (.head _)
    have in_order := pass (_, .badField) (.tail _ (.tail _ (.head _)))
    have rises := pass (_, .badField) (.tail _ (.tail _ (.tail _ (.head _))))
    simp only [decide_eq_false_iff_not, Nat.not_lt] at index in_order
    have points : Points.Legal p := ⟨falls_eq_false_iff.1 rises, readLawLoad_le_full read⟩
    exact legal.setProfiles (legal.working.setLaws points index in_order)

theorem decideLookSet (legal : s.RigLegal) : (decideLookSet l body role s).state.RigLegal := by
  unfold Machine.decideLookSet
  repeat' split
  any_goals exact legal
  next f read _ _ _ _ _ k es _ checked =>
    refine refuseFirst_keeps _ legal fun pass => ?_
    have priority := pass (_, .badField) (.head _)
    have length := pass (_, .listFull) (.tail _ (.tail _ (.head _)))
    have once := pass (_, .badField) (.tail _ (.tail _ (.tail _ (.head _))))
    rw [← Bool.not_eq_true, circuitTwice_iff, not_not] at once
    simp only [decide_eq_false_iff_not, Nat.not_lt] at priority length
    exact legal.setRig (legal.working.setLook k (sortLook_legal checked (readLookSet_level read) priority length once)) rfl rfl

theorem decideLineSetup (legal : s.RigLegal) : (decideLineSetup l body role s).state.RigLegal := by
  unfold Machine.decideLineSetup
  repeat' split
  any_goals exact legal
  · exact refuseFirst_keeps _ legal fun _ => legal.setupLine _ (clampTo_mem (by decide) _)

theorem decideLinkSetup (legal : s.RigLegal) : (decideLinkSetup l body role s).state.RigLegal := by
  unfold Machine.decideLinkSetup
  repeat' split
  any_goals exact legal
  next f _ _ _ _ _ failover _ =>
    have written := legal.setRig (legal.working.setLinkSetup f.limitA f.limitB f.limitC failover) rfl rfl
    exact refuseFirst_keeps _ legal fun _ => written.same ⟨rfl, rfl, rfl⟩

theorem decideRackSetup (legal : s.RigLegal) : (decideRackSetup l body role s).state.RigLegal := by
  unfold Machine.decideRackSetup
  repeat' split
  any_goals exact legal
  · exact refuseFirst_keeps _ legal fun _ => legal.setRig (legal.working.setRack _ (clampTo_mem (by decide) _)) rfl rfl

theorem decidePlaybackSetup (legal : s.RigLegal) : (decidePlaybackSetup l body role s).state.RigLegal := by
  unfold Machine.decidePlaybackSetup
  repeat' split
  any_goals exact legal
  · exact refuseFirst_keeps _ legal fun _ =>
      legal.setRig (legal.working.setPlayback _ ⟨clampTenths_le _, clampTenths_le _⟩) rfl rfl

theorem decideStartBank (legal : s.RigLegal) : (decideStartBank l body role s).state.RigLegal := by
  unfold Machine.decideStartBank
  repeat' split
  any_goals exact legal
  · exact refuseFirst_keeps _ legal fun _ => legal.setRig (legal.working.setStartBank _) rfl rfl

/-- A save of the rig record stores a legal working one. -/
theorem storeWorking (legal : s.RigLegal) (cls : SaveClass) : (s.storeWorking cls).RigLegal := by
  cases cls with
  | bank n => exact legal.same ⟨rfl, rfl, rfl⟩
  | rig => exact ⟨legal.working, legal.working, legal.faults⟩

theorem saveEnd (legal : s.RigLegal) : s.saveEnd.RigLegal := by
  unfold State.saveEnd
  split
  · exact legal
  · next x _ =>
    have ended : ({ s.storeWorking x.cls with saving := none } : State).RigLegal :=
      (legal.storeWorking x.cls).same ⟨rfl, rfl, rfl⟩
    exact ended.same (.answerTimed _ _)

/-- The defaults name LINEAR for every circuit: none of their laws is undefined. -/
theorem countLawFaults_default : countLawFaults RigRecord.default = 0 := Table.count_fill _ _ _

theorem assertReset (legal : s.RigLegal) : s.assertReset.RigLegal :=
  ⟨.default, legal.stored, countLawFaults_default.symm⟩

theorem loadedRig (legal : s.RigLegal) : s.loadedRig.Legal := by
  unfold State.loadedRig
  split
  · exact legal.stored
  · exact .default

/-- A cold start loads the stored record or the defaults and counts its faults (R179). -/
theorem coldStart (legal : s.RigLegal) : s.coldStart.RigLegal := ⟨legal.loadedRig, legal.stored, rfl⟩

/-! ### One step -/

theorem requestRow (q : Request) {decision : Role → State → Verdict} (legal : s.RigLegal)
    (hd : ∀ role s, s.RigLegal → (decision role s).state.RigLegal) : (Machine.requestRow l q decision s).RigLegal := by
  have received : (s.receive l q).RigLegal := legal.same ⟨rfl, rfl, rfl⟩
  obtain ⟨-, h⟩ | ⟨-, h⟩ | ⟨-, -, h⟩ | ⟨-, -, h⟩ := requestRow_cases s l q decision <;> rw [h]
  · exact legal
  · exact (hd _ _ legal).same (.settle l _)
  · exact (hd _ _ received).same (.settle l _)
  · exact received

/-- A request row whose decision leaves the rig record alone. -/
theorem otherRow (q : Request) {decision : Role → State → Verdict} (legal : s.RigLegal)
    (hd : ∀ role s, SameRig s (decision role s).state) : (Machine.requestRow l q decision s).RigLegal :=
  legal.requestRow l q fun role _ h => h.same (hd role _)

/-- Whatever the command, the rig record stays legal. -/
theorem exec {c : Instr} (legal : s.RigLegal) (h : Machine.exec c s = .next t) : t.RigLegal := by
  cases c <;> obtain rfl := Host.Outcome.next.inj h
  case profileSet => exact legal.requestRow _ _ fun _ _ => .decideProfileSet _ _ _
  case lawLoad => exact legal.requestRow _ _ fun _ _ => .decideLawLoad _ _ _
  case lookSet => exact legal.requestRow _ _ fun _ _ => .decideLookSet _ _ _
  case lineSetup => exact legal.requestRow _ _ fun _ _ => .decideLineSetup _ _ _
  case linkSetup => exact legal.requestRow _ _ fun _ _ => .decideLinkSetup _ _ _
  case rackSetup => exact legal.requestRow _ _ fun _ _ => .decideRackSetup _ _ _
  case playbackSetup => exact legal.requestRow _ _ fun _ _ => .decidePlaybackSetup _ _ _
  case startBank => exact legal.requestRow _ _ fun _ _ => .decideStartBank _ _ _
  case saveEnd => exact whileRunning_keeps legal legal.saveEnd
  case unknownKind =>
    split
    · exact legal
    · exact legal.otherRow _ _ fun _ s => .refl s
  case save => exact legal.otherRow _ _ (decideSave_sameRig _ _)
  case cueOpen => exact legal.otherRow _ _ (decideCueOpen_sameRig _ _)
  case go => exact legal.otherRow _ _ (decideGo_sameRig _ _)
  case back => exact legal.otherRow _ _ (decideBack_sameRig _ _)
  case manual => exact legal.otherRow _ _ (decideManual_sameRig _ _)
  case release => exact legal.otherRow _ _ (decideRelease_sameRig _ _)
  case hold => exact legal.otherRow _ _ fun role s => decideHolds_sameRig _ _ role s true
  case resume => exact legal.otherRow _ _ fun role s => decideHolds_sameRig _ _ role s false
  -- No branch of the other requests writes the rig record, working or stored.
  case status | read | takeLead | yieldLead | cueMoves | cueClose | cueDrop | rate | pbLevel | patchSet | bankClear | bankCopy
      | bankSelect | park | flash | nudge | unpark | lookRaise | lookLower | grand =>
    refine legal.otherRow _ _ fun role s => ?_
    simp only [decideStatus, decideRead, decideTakeLead, decideYieldLead, decideCueMoves, decideCueClose, decideCueDrop,
      decideRate, decidePbLevel, decidePatchSet, State.patch, decideBankClear, decideBankCopy, decideBankSelect, decidePark,
      decideFlash, setPark, decideNudge, decideUnpark, decideRaise, decideGrand, refuseFirst]
    repeat' split
    all_goals exact ⟨rfl, rfl, rfl⟩
  case fadeTick => exact whileRunning_keeps legal (legal.same (.of_beside s.tick_beside))
  case followDue => exact whileRunning_keeps legal (legal.same (.of_beside (State.followDue_beside _)))
  case badTelegram | linkByteReceived => exact whileRunning_keeps legal (legal.same (.handOn _ _))
  case rebuildEnd => exact whileRunning_keeps legal (legal.same .endRebuild)
  case saveWriteFailure => exact whileRunning_keeps legal (legal.same .saveFailure)
  case silenceMonitorExpiry => exact whileRunning_keeps legal (legal.same (.silence _))
  -- Nor does any branch of these events.
  case validTelegram | interByteGap | replySent | flashTimerExpiry | supplyDip | echoTimerExpiry =>
    exact whileRunning_keeps legal (legal.same ⟨rfl, rfl, rfl⟩)
  case debounceTimerExpiry | frameStart =>
    refine whileRunning_keeps legal (legal.same ?_)
    simp only [State.debounceExpiry, State.edge, State.frameStart]
    repeat' split
    all_goals exact ⟨rfl, rfl, rfl⟩
  case lineInputChange =>
    refine legal.same ?_
    unfold State.inputChange
    dsimp only
    repeat' split
    all_goals exact ⟨rfl, rfl, rfl⟩
  case resetAssert =>
    unfold State.lowerReset
    split
    · exact legal.assertReset
    · exact legal.assertReset
    · exact legal.same ⟨rfl, rfl, rfl⟩
  case coldStart =>
    unfold State.startCold
    split
    · exact legal.coldStart
    · exact legal.coldStart
    · exact legal.coldStart
    · exact legal.same ⟨rfl, rfl, rfl⟩
  case dipRestart =>
    unfold State.recover
    split
    · exact legal
    · exact legal
    · exact legal.same .dipRestart
    · exact legal.assertReset

end State.RigLegal

/-- Settles O48: the eight requests that write the record check or clamp what they write (`State.RigLegal.decideProfileSet` and
its kin), a save stores a legal working record, a cold start loads a stored one, and nothing else touches both (`SameRig`). -/
theorem everyStepKeepsTheRigRecordLegal : Obligations.EveryStepKeepsTheRigRecordLegal := by
  intro s t legal h
  unfold step at h
  split at h
  · cases h
    exact legal
  · next rest _ =>
    have taken : SameRig s { s with pending := rest } := ⟨rfl, rfl, rfl⟩
    exact (legal.same taken).exec h

end Sys2Proof.Machine
end

section
namespace Sys2Proof.Machine

/-! ### Point laws (R98, R99) -/

theorem Table.getD_cells {n : Nat} (t : Table n Nat) (i : Fin n) : (t.cells[i.val]?).getD 0 = t.get i := by
  have inside : i.val < t.cells.length := t.size.symm ▸ i.isLt
  rw [List.getElem?_eq_getElem inside]
  rfl

/-- The points of a legal law never fall (R98). -/
theorem Points.Legal.get_le_get {p : Points} (legal : Points.Legal p) {i j : Fin 17} (h : i ≤ j) : p.get i ≤ p.get j := by
  rcases h.eq_or_lt with rfl | h
  · exact le_rfl
  · exact List.pairwise_iff_getElem.1 legal.1 i j _ _ h

/-- The raw levels from the lower point of a segment to its upper one: the last segment ends at 65535 (R99). -/
def segmentWidth (i : Fin 16) : Nat := if i = 15 then 4095 else 4096

/-- A raw level lies in one of the sixteen segments. -/
theorem exists_segment {r : Nat} (h : r ≤ 65535) : ∃ i : Fin 16, 4096 * i.val ≤ r ∧ r < 4096 * (i.val + 1) :=
  ⟨⟨r / 4096, by omega⟩, by dsimp only; omega, by dsimp only; omega⟩

section
variable {p : Points} {i : Fin 16} {r : Nat}

theorem interpolate_segment (lower : 4096 * i.val ≤ r) (upper : r < 4096 * (i.val + 1)) :
    interpolate p r =
      p.get i.castSucc + (p.get i.succ - p.get i.castSucc) * (r - 4096 * i.val) / segmentWidth i := by
  unfold interpolate segmentWidth
  by_cases last : i = 15
  · subst last
    have above : ¬ r < 61440 := Nat.not_lt.2 lower
    rw [if_neg above, if_pos rfl]
    rfl
  · have before : i.val ≠ 15 := fun h => last (Fin.ext h)
    have segment : r / 4096 = i.val := by omega
    rw [if_pos (by omega), if_neg last]
    dsimp only
    rw [segment, ← Table.getD_cells, ← Table.getD_cells]
    rfl

theorem segmentWidth_pos (i : Fin 16) : 0 < segmentWidth i := by
  unfold segmentWidth
  split <;> decide

/-- Up to 65535 a raw level lies no further from its segment's lower point than the upper point does. -/
theorem sub_le_segmentWidth (upper : r < 4096 * (i.val + 1)) (scale : r ≤ 65535) : r - 4096 * i.val ≤ segmentWidth i := by
  unfold segmentWidth
  split
  · next last =>
    subst last
    exact Nat.sub_le_of_le_add scale
  · omega

theorem interpolate_at_point (p : Points) (i : Fin 16) : interpolate p (4096 * i.val) = p.get i.castSucc := by
  rw [interpolate_segment le_rfl (by omega), Nat.sub_self, Nat.mul_zero, Nat.zero_div, Nat.add_zero]

variable (legal : Points.Legal p)
include legal

theorem Points.Legal.interpolate_last : interpolate p 65535 = p.get 16 := by
  have rises : p.get 15 ≤ p.get 16 := legal.get_le_get (by decide)
  rw [interpolate_segment (i := 15) (by decide) (by decide)]
  show p.get 15 + (p.get 16 - p.get 15) * 4095 / 4095 = p.get 16
  rw [Nat.mul_div_cancel _ (by decide), Nat.add_sub_cancel' rises]

theorem Points.Legal.interpolate_mem (lower : 4096 * i.val ≤ r) (upper : r < 4096 * (i.val + 1)) :
    p.get i.castSucc ≤ interpolate p r ∧ interpolate p r ≤ p.get i.succ := by
  have rises : p.get i.castSucc ≤ p.get i.succ := legal.get_le_get (Fin.castSucc_le_succ i)
  have part : (p.get i.succ - p.get i.castSucc) * (r - 4096 * i.val) / segmentWidth i ≤ p.get i.succ - p.get i.castSucc := by
    refine Nat.div_le_of_le_mul ?_
    rw [Nat.mul_comm]
    exact Nat.mul_le_mul_right _ (sub_le_segmentWidth upper (by omega))
  rw [interpolate_segment lower upper]
  exact ⟨Nat.le_add_right _ _, (Nat.add_le_add_left part _).trans_eq (Nat.add_sub_cancel' rises)⟩

/-- Within a segment the rounded part grows with the raw level; from one to the next the points between them do not fall. -/
theorem Points.Legal.interpolate_mono {r' : Nat} (h : r ≤ r') (scale : r' ≤ 65535) : interpolate p r ≤ interpolate p r' := by
  obtain ⟨i, lower, upper⟩ := exists_segment (h.trans scale)
  obtain ⟨j, lower', upper'⟩ := exists_segment scale
  rcases eq_or_ne i j with rfl | apart
  · rw [interpolate_segment lower upper, interpolate_segment lower' upper']
    gcongr
  · have before : i.succ ≤ j.castSucc := by
      have differ : i.val ≠ j.val := Fin.val_ne_of_ne apart
      show i.val + 1 ≤ j.val
      omega
    calc interpolate p r ≤ p.get i.succ := (legal.interpolate_mem lower upper).2
      _ ≤ p.get j.castSucc := legal.get_le_get before
      _ ≤ interpolate p r' := (legal.interpolate_mem lower' upper').1

end

/-! ### The built-in laws and the naming of laws (R97, R98, R101) -/

theorem linearPoints_step (i : Fin 16) :
    linearPoints.get i.castSucc = 4096 * i.val ∧ linearPoints.get i.succ - linearPoints.get i.castSucc = segmentWidth i := by
  revert i
  decide

theorem interpolate_linearPoints {r : Nat} (h : r ≤ 65535) : interpolate linearPoints r = r := by
  obtain ⟨i, lower, upper⟩ := exists_segment h
  obtain ⟨point, step⟩ := linearPoints_step i
  rw [interpolate_segment lower upper, step, point, Nat.mul_div_cancel_left _ (segmentWidth_pos i)]
  omega

/-- The points of SQUARE and FASTSTART are those of R97's formulas, as LINEAR's are. -/
theorem builtIn_points : ∀ i : Fin 17,
    linearPoints.get i = (if i = 16 then 65535 else 4096 * i.val) ∧
    squarePoints.get i = (if i = 16 then 65535 else if i = 0 then 0 else 256 * i.val ^ 2 - 1) ∧
    faststartPoints.get i = (if i = 16 then 65535 else 65536 - 256 * (16 - i.val) ^ 2) := by decide

theorem lawOf_builtIn_undefined (laws : List Points) {i : Nat} (h : 5 ≤ i) : lawOf laws 0 i = .points linearPoints := by
  obtain ⟨n, rfl⟩ := Nat.exists_eq_add_of_le' h
  rfl

theorem lawOf_user {page : Nat} (h : page ≠ 0) (laws : List Points) (i : Nat) :
    lawOf laws page i = .points ((laws[i]?).getD linearPoints) := if_neg h

theorem lawOf_user_undefined {page : Nat} (h : page ≠ 0) {laws : List Points} {i : Nat} (none_at : laws.length ≤ i) :
    lawOf laws page i = .points linearPoints := by
  rw [lawOf_user h, List.getElem?_eq_none none_at, Option.getD_none]

/-- Settles O46: everything about a point law follows from its value in one segment (`interpolate_segment`). -/
theorem pointLawsInterpolate : Obligations.PointLawsInterpolate := by
  refine ⟨fun p legal => ⟨interpolate_at_point p, legal.interpolate_last, fun i r => legal.interpolate_mem,
    fun r r' => legal.interpolate_mono⟩, fun r => interpolate_linearPoints, fun p i r => interpolate_segment, builtIn_points,
    fun laws => ⟨rfl, rfl, rfl, rfl, rfl, fun i => lawOf_builtIn_undefined laws, fun i p named => ?_,
      fun i => lawOf_user_undefined Nat.one_ne_zero⟩⟩
  rw [lawOf_user Nat.one_ne_zero, named, Option.getD_some]

/-! ### The limits of an output (R100 to R102) -/

variable {laws : List Points} {f : Profile}

theorem lawOf_undefined (h : undefinedLaw laws f = true) : lawOf laws f.page f.index = .points linearPoints := by
  unfold undefinedLaw at h
  split at h
  · next builtIn =>
    rw [builtIn]
    exact lawOf_builtIn_undefined laws (of_decide_eq_true h)
  · next user => exact lawOf_user_undefined user (of_decide_eq_true h)

theorem limitOutput_of_ne_switch {w : Law} (h : w ≠ .switch) (v : Nat) :
    limitOutput w f v = min (max v f.preheat) f.topSet := by
  cases w with
  | switch => exact absurd rfl h
  | points p => rfl
  | fluorescent => rfl

theorem profileOutput_points {p : Points} (h : lawOf laws f.page f.index = .points p) (r : Nat) :
    profileOutput laws f r = min (max (interpolate p r) f.preheat) f.topSet := by
  unfold profileOutput
  rw [h]
  rfl

theorem profileOutput_fluorescent (h : lawOf laws f.page f.index = .fluorescent) (r : Nat) :
    profileOutput laws f r = min (max (if r = 0 then 0 else 16384 + 3 * r / 4) f.preheat) f.topSet := by
  unfold profileOutput
  rw [h]
  rfl

theorem profileOutput_switch (h : lawOf laws f.page f.index = .switch) (top : f.topSet ≤ 65535) (r : Nat) :
    profileOutput laws f r = if r < 32768 then 0 else f.topSet := by
  unfold profileOutput
  rw [h]
  show min (if r < 32768 then 0 else 65535) f.topSet = _
  split
  · exact Nat.zero_min _
  · exact min_eq_right top

/-- Settles O47: the law of the profile, case by case, under its limits. -/
theorem outputsObeyTheirLimits : Obligations.OutputsObeyTheirLimits := by
  intro laws f r ⟨_, _, preheat_le, topSet_le⟩ scale
  refine ⟨fun limited => ⟨?_, profileOutput_le laws f r⟩, fun h => profileOutput_switch h topSet_le r,
    fun h => profileOutput_fluorescent h r, fun h => ?_, fun p h => profileOutput_points h r⟩
  · unfold profileOutput
    rw [limitOutput_of_ne_switch limited]
    exact le_min (le_max_right _ _) preheat_le
  · rw [profileOutput_points (lawOf_undefined h), interpolate_linearPoints scale]

end Sys2Proof.Machine
end

section
namespace Sys2Proof.Machine

/-! ### PROFILE_SET and LAW_LOAD (R104 to R108) -/

theorem undefinedLaw_iff (laws : List Points) (f : Profile) :
    undefinedLaw laws f = true ↔ (f.page = 0 ∧ 5 ≤ f.index) ∨ (f.page ≠ 0 ∧ laws.length ≤ f.index) := by
  unfold undefinedLaw
  split
  · next builtIn => simp [builtIn]
  · next user => simp [user]

/-- Settles O45: each row's fields, role, rebuild, save and write. -/
theorem profileAndLawRequestsFollowTheirRules : Obligations.ProfileAndLawRequestsFollowTheirRules := by
  refine ⟨fun s l tag c1 c0 page index h1 h0 t1 t0 hh => ?_, fun s l tag body i p read hh => ?_⟩ <;>
    refine congrArg Host.Outcome.next ((requestRow_atHead _ hh).trans ?_)
  · rcases hd : deskOf l with _ | d
    · simp only [decideProfileSet, readProfileSet, hd, settle_answer]
    simp only [decideProfileSet, readProfileSet, hd, be16]
    rcases numbered 768 (c1.toNat * 256 + c0.toNat) with _ | c
    · rfl
    have fields : (decide (1 < page.toNat) || decide (7 < index.toNat)) = true ↔ 1 < page.toNat ∨ 7 < index.toNat := by
      rw [Bool.or_eq_true, decide_eq_true_eq, decide_eq_true_eq]
    have builtIn : page = 0 ↔ page.toNat = 0 := BitVec.toNat_inj.symm
    simp only [settle_refuseFirst_cons, settle_refuseFirst_lead s hd, fields, builtIn, ne_eq, decide_eq_true_eq,
      savingRig_iff, refuseFirst_nil, settle_answer, State.setProfile, undefinedLaw_iff]
    rfl
  · rcases hd : deskOf l with _ | d
    · simp only [decideLawLoad, read, hd, settle_answer]
    simp only [decideLawLoad, read, hd, settle_refuseFirst_cons, settle_refuseFirst_lead s hd, ← falls_eq_false_iff, Bool.not_eq_false,
      decide_eq_true_eq, savingRig_iff, refuseFirst_nil, settle_answer]
    rfl

end Sys2Proof.Machine
end

section
namespace Sys2Proof.Machine

variable {s t u : State}

/-! ### What a legal park list keeps through (R111) -/

/-- The entry of a circuit in a legal list is the only one. -/
theorem State.ParksLegal.eq_of_circuit (legal : s.ParksLegal) {x y : Park} (hx : x ∈ s.parks) (hy : y ∈ s.parks)
    (same : x.circuit = y.circuit) : x = y :=
  List.inj_on_of_nodup_map legal.circuits hx hy same

/-- Entries changed in place, each for its own circuit. -/
theorem State.ParksLegal.map (legal : s.ParksLegal) {f : Park → Park} (parks : t.parks = s.parks.map f)
    (circuit : ∀ x, (f x).circuit = x.circuit) (entries : ∀ x ∈ s.parks, (f x).Legal) : t.ParksLegal where
  length_le := by
    rw [parks, List.length_map]
    exact legal.length_le
  circuits := by
    have unchanged : (·.circuit) ∘ f = (·.circuit) := funext circuit
    rw [parks, List.map_map, unchanged]
    exact legal.circuits
  entries := by
    rw [parks]
    exact List.forall_mem_map.2 entries

/-- A park added to a list with room for it. -/
theorem State.ParksLegal.append (legal : s.ParksLegal) {x : Park} (parks : t.parks = s.parks ++ [x])
    (new : ∀ y ∈ s.parks, y.circuit ≠ x.circuit) (room : s.parks.length < Config.parkEntries) (hx : x.Legal) :
    t.ParksLegal where
  length_le := by
    rw [parks, List.length_append]
    exact room
  circuits := by
    rw [parks, List.map_append, List.map_singleton]
    exact legal.circuits.append (List.nodup_singleton _) (List.disjoint_singleton.2 fun h =>
      have ⟨y, hy, same⟩ := List.mem_map.1 h
      new y hy same)
  entries y hy := by
    rw [parks, List.mem_append, List.mem_singleton] at hy
    obtain hy | rfl := hy
    · exact legal.entries y hy
    · exact hx

/-! ### What at most removes parks -/

/-- From `s` to `t` parks have at most left the list. -/
def Sheds (s t : State) : Prop := t.parks.Sublist s.parks

theorem Sheds.of_same (parks : t.parks = s.parks) : Sheds s t := by
  unfold Sheds
  rw [parks]

theorem Sheds.refl (s : State) : Sheds s s := .of_same rfl

theorem Sheds.trans (h : Sheds s t) (k : Sheds t u) : Sheds s u := List.Sublist.trans k h

theorem State.ParksLegal.shed (legal : s.ParksLegal) (h : Sheds s t) : t.ParksLegal where
  length_le := h.length_le.trans legal.length_le
  circuits := legal.circuits.sublist (h.map _)
  entries x hx := legal.entries x (h.subset hx)

theorem Sheds.of_beside (h : SameBeside s t) : Sheds s t := .of_same (by rw [h.1])

theorem Sheds.of_fills (h : FillsOnly s t) : Sheds s t := .of_same (by rw [h.2.2])

/-- The parks that a test picks are kept. -/
theorem Sheds.filter (p : Park → Bool) : Sheds s (s.setParks (s.parks.filter p)) := List.filter_sublist

theorem Sheds.of_none (none_left : t.parks = []) : Sheds s t := by
  unfold Sheds
  rw [none_left]
  exact List.nil_sublist _

theorem Sheds.settle (l : Link) (v : Verdict) : Sheds v.state (settle l v) := by
  cases v <;> exact .of_same rfl

theorem Sheds.refuseFirst (checks : List (Bool × ResultCode)) {taken : Verdict} (h : Sheds s taken.state) :
    Sheds s (refuseFirst checks s taken).state :=
  refuseFirst_keeps checks (.refl s) fun _ => h

theorem Sheds.answerTimed (d : Desk) (code : ResultCode) : Sheds s (s.answerTimed d code) := by
  unfold State.answerTimed
  split <;> exact .of_same rfl

theorem Sheds.invalidate (cls : SaveClass) : Sheds s (s.invalidate cls) := by
  cases cls <;> exact .of_same rfl

theorem Sheds.handOn (l : Link) (x : Receiver × List Request) : Sheds s (s.handOn l x) := by
  have arrived (qs : List Request) (v : State) : Sheds v (qs.foldl (fun v q => v.arrive l q) v) := by
    induction qs generalizing v with
    | nil => exact .refl v
    | cons q qs ih => exact Sheds.trans (t := v.arrive l q) (.of_same rfl) (ih _)
  exact Sheds.trans (t := s.modPort l fun p => { p with receiver := x.1 }) (.of_same rfl) (arrived x.2 _)

/-- The silence of a desk leaves the parks alone, that of the remote removes those it owns (R119). -/
theorem Sheds.silence (l : Link) : Sheds s (s.silence l) := by
  have lead_gone (v : State) (d : Desk) : Sheds v (v.leadSilent d) := by
    unfold State.leadSilent
    repeat' split
    all_goals exact .of_same rfl
  have fallen : Sheds s (s.modPort l Port.fallSilent) := .of_same rfl
  unfold State.silence
  dsimp only
  repeat' split
  · exact .refl s
  · exact (fallen.trans (lead_gone _ _)).trans (.of_fills (State.endFill_only _ _))
  · exact fallen.trans (.filter _)

/-- The end of a rebuild, whoever waits for it, with or without the first frames of a cold start (R88). -/
theorem Sheds.endRebuild : Sheds s s.endRebuild := by
  have rebuilt (n : Fin 4) : Sheds s (s.rebuilt n) := .of_same rfl
  have framed (v : State) : Sheds v v.firstFrames := .of_same rfl
  rcases h : s.rebuild with _ | ⟨n, _ | d, _ | _⟩
  · rw [State.endRebuild_idle h]
    exact .refl s
  all_goals rw [State.endRebuild_eq h]
  · exact rebuilt n
  · exact (rebuilt n).trans (framed _)
  · exact (rebuilt n).trans (.answerTimed d _)
  · exact ((rebuilt n).trans (.answerTimed d _)).trans (framed _)

/-- The end of a save, written or failed (R175, R176). -/
theorem Sheds.saveEnd : Sheds s s.saveEnd := by
  unfold State.saveEnd
  split
  · exact .refl s
  · next x _ =>
    have stored : Sheds s { s.storeWorking x.cls with saving := none } := by
      unfold State.storeWorking
      split <;> exact .of_same rfl
    exact stored.trans (.answerTimed _ _)

theorem Sheds.saveFailure : Sheds s s.saveFailure := by
  unfold State.saveFailure
  split
  · exact .refl s
  · next x _ =>
    have ended : Sheds (s.invalidate x.cls) { s.invalidate x.cls with saving := none } := .of_same rfl
    exact ((Sheds.invalidate x.cls).trans ended).trans (.answerTimed _ _)

theorem Sheds.dipRestart : Sheds s s.dipRestart := .of_same (by rw [s.dipRestart_others])

theorem Sheds.assertReset : Sheds s s.assertReset := .of_none rfl

theorem Sheds.coldStart : Sheds s s.coldStart := .of_none rfl

section
variable (l : Link) (body : List Byte) (role : Role) (s : State)

theorem decideCueOpen_sheds : Sheds s (decideCueOpen l body role s).state := by
  unfold decideCueOpen
  repeat' split
  any_goals exact .refl s
  next d _ _ _ _ _ _ _ _ =>
    refine Sheds.trans (.of_fills (s.endFill_only d)) ?_
    unfold openSlot divergedOpen replaceSlot absorb
    dsimp only
    repeat' split
    all_goals exact .of_same rfl

theorem decideGo_sheds : Sheds s (decideGo l body role s).state := by
  unfold decideGo
  repeat' split
  any_goals exact .refl s
  all_goals refine .refuseFirst _ ?_
  any_goals exact .refl s
  · exact .of_beside (State.takeGo_beside _ _ _ _ _)

theorem decideBack_sheds : Sheds s (decideBack l body role s).state := by
  unfold decideBack
  repeat' split
  any_goals exact .refl s
  all_goals refine .refuseFirst _ ?_
  any_goals exact .refl s
  next p _ _ _ _ _ => exact .of_beside ((s.modPlayback_beside p _).trans (State.plainStart_beside _ p _ _))

theorem decideManual_sheds : Sheds s (decideManual l body role s).state := by
  unfold decideManual
  repeat' split
  any_goals exact .refl s
  · exact .refuseFirst _ (.of_beside (State.plainStart_beside _ _ _ _))

theorem decideRelease_sheds : Sheds s (decideRelease l body role s).state := by
  unfold decideRelease
  repeat' split
  any_goals exact .refl s
  next d _ _ p _ =>
    refine .refuseFirst _ ?_
    have cleared := s.modPlayback_beside p fun x => { x with stack := [], currentCue := 0 }
    obtain h | h := State.takeRelease_cases (s := s) d p <;> rw [answer_state, h]
    · exact .of_beside cleared
    · exact .of_beside (cleared.trans (State.plainStart_beside _ _ _ _))

theorem decideHolds_sheds (b : Bool) : Sheds s (decideHolds b l body role s).state := by
  unfold decideHolds
  repeat' split
  any_goals exact .refl s
  · rw [answer_state, s.setHolds_eq]
    exact .of_same rfl

theorem decideSave_sheds : Sheds s (decideSave l body role s).state := by
  unfold decideSave
  repeat' split
  any_goals exact .refl s
  · exact .refuseFirst _ (Sheds.trans (.invalidate _) (.of_same rfl))

theorem decideUnpark_sheds : Sheds s (decideUnpark l body role s).state := by
  unfold decideUnpark
  repeat' split
  any_goals exact .refl s
  all_goals exact .filter _

end

/-! ### The rows that set or change a park (R114 to R117) -/

theorem State.isParked_iff (s : State) (c : Fin 768) : s.isParked c = true ↔ ∃ x ∈ s.parks, x.circuit = c := by
  simp only [State.isParked, List.any_eq_true, decide_eq_true_eq]

/-- A STEADY park has no field but its level (R114). -/
theorem Park.legal_steady (c : Fin 768) {level : Nat} (h : level ≤ Config.full) (l : Link) : Park.Legal ⟨c, level, none, l⟩ :=
  ⟨h, nofun⟩

theorem flashTime_legal (b : Byte) : 1 ≤ flashTime b.toNat ∧ flashTime b.toNat ≤ 255 := by
  have range := b.isLt
  unfold flashTime
  omega

/-- The FLASH entry of a request: its levels are two-byte fields, and a time of 0 is held to 1 (R115). -/
theorem flashPark_legal {body : List Byte} {f : FlashFields} (h : readFlash body = some f) (c : Fin 768) (l : Link) :
    (flashPark c f l).Legal := by
  unfold readFlash at h
  split at h
  · cases h
    refine ⟨be16_le_full _ _, fun g hg => ?_⟩
    cases hg
    exact ⟨be16_le_full _ _, (flashTime_legal _).1, (flashTime_legal _).2, (flashTime_legal _).1, (flashTime_legal _).2⟩
  · cases h

theorem readWords2_level {body : List Byte} {k v : Nat} (h : readWords2 body = some (k, v)) : v ≤ Config.full := by
  unfold readWords2 at h
  split at h
  · cases h
    exact be16_le_full _ _
  · cases h

theorem nudged_le_full (level : Nat) (delta : Int) : nudged level delta ≤ Config.full := by
  unfold nudged Config.full
  omega

/-- A toggle changes the phase and the timer alone (R116). -/
theorem Park.Legal.toggle {x : Park} (legal : x.Legal) : Park.Legal { x with flash := x.flash.map Flashing.toggle } := by
  obtain ⟨level, flash⟩ := legal
  refine ⟨level, fun f hf => ?_⟩
  obtain ⟨g, hg, rfl⟩ := Option.map_eq_some_iff.1 hf
  unfold Flashing.toggle
  split <;> exact flash g hg

namespace State.ParksLegal

theorem modPark (legal : s.ParksLegal) {c : Fin 768} {f : Park → Park} (circuit : ∀ x, x.circuit = c → (f x).circuit = c)
    (entries : ∀ x ∈ s.parks, (f x).Legal) : (s.modPark c f).ParksLegal := by
  refine legal.map rfl (fun x => ?_) fun x hx => ?_
  · split
    · next h => rw [circuit x h, h]
    · rfl
  · split
    · exact entries x hx
    · exact legal.entries x hx

/-- A park set updates the entry of its circuit or joins a list with room: the length and the circuits stay within R111. -/
theorem setPark (legal : s.ParksLegal) {x : Park} (hx : x.Legal) (code : ResultCode) :
    (setPark x code s).state.ParksLegal := by
  unfold Machine.setPark
  split
  · exact legal.modPark (fun _ _ => rfl) fun _ _ => hx
  · next new =>
    split
    · next room =>
      exact legal.append rfl (fun y hy same => new ((s.isParked_iff _).2 ⟨y, hy, same⟩)) room hx
    · exact legal

variable (l : Link) (body : List Byte) (role : Role)

theorem decidePark (legal : s.ParksLegal) : (decidePark l body role s).state.ParksLegal := by
  unfold Machine.decidePark
  repeat' split
  any_goals exact legal
  next read _ _ _ _ => exact legal.setPark (Park.legal_steady _ (readWords2_level read) _) _

theorem decideFlash (legal : s.ParksLegal) : (decideFlash l body role s).state.ParksLegal := by
  unfold Machine.decideFlash
  repeat' split
  any_goals exact legal
  next read _ _ _ _ => exact legal.setPark (flashPark_legal read _ _) _

theorem decideNudge (legal : s.ParksLegal) : (decideNudge l body role s).state.ParksLegal := by
  unfold Machine.decideNudge
  repeat' split
  any_goals exact legal
  · exact legal.modPark (fun _ h => h) fun x hx => ⟨nudged_le_full _ _, (legal.entries x hx).2⟩

/-- The expiry of a flash timer (R116). -/
theorem flashExpiry (legal : s.ParksLegal) (c : Fin 768) : (s.flashExpiry c).ParksLegal :=
  legal.modPark (fun _ h => h) fun x hx => (legal.entries x hx).toggle

/-! ### One step -/

theorem requestRow (q : Request) {decision : Role → State → Verdict} (legal : s.ParksLegal)
    (hd : ∀ role s, s.ParksLegal → (decision role s).state.ParksLegal) : (Machine.requestRow l q decision s).ParksLegal := by
  have received : (s.receive l q).ParksLegal := legal.shed (.of_same rfl)
  obtain ⟨-, h⟩ | ⟨-, h⟩ | ⟨-, -, h⟩ | ⟨-, -, h⟩ := requestRow_cases s l q decision <;> rw [h]
  · exact legal
  · exact (hd _ _ legal).shed (.settle l _)
  · exact (hd _ _ received).shed (.settle l _)
  · exact received

/-- A request row whose decision at most removes parks. -/
theorem otherRow (q : Request) {decision : Role → State → Verdict} (legal : s.ParksLegal)
    (hd : ∀ role s, Sheds s (decision role s).state) : (Machine.requestRow l q decision s).ParksLegal :=
  legal.requestRow l q fun role _ h => h.shed (hd role _)

/-- Whatever the command, the park list stays legal. -/
theorem exec {c : Instr} (legal : s.ParksLegal) (h : Machine.exec c s = .next t) : t.ParksLegal := by
  cases c <;> obtain rfl := Host.Outcome.next.inj h
  case park => exact legal.requestRow _ _ fun _ _ => .decidePark _ _ _
  case flash => exact legal.requestRow _ _ fun _ _ => .decideFlash _ _ _
  case nudge => exact legal.requestRow _ _ fun _ _ => .decideNudge _ _ _
  case flashTimerExpiry => exact whileRunning_keeps legal (legal.flashExpiry _)
  case unpark => exact legal.otherRow _ _ (decideUnpark_sheds _ _)
  case unknownKind =>
    split
    · exact legal
    · exact legal.otherRow _ _ fun _ s => .refl s
  case cueOpen => exact legal.otherRow _ _ (decideCueOpen_sheds _ _)
  case go => exact legal.otherRow _ _ (decideGo_sheds _ _)
  case back => exact legal.otherRow _ _ (decideBack_sheds _ _)
  case manual => exact legal.otherRow _ _ (decideManual_sheds _ _)
  case release => exact legal.otherRow _ _ (decideRelease_sheds _ _)
  case hold => exact legal.otherRow _ _ fun role s => decideHolds_sheds _ _ role s true
  case resume => exact legal.otherRow _ _ fun role s => decideHolds_sheds _ _ role s false
  case save => exact legal.otherRow _ _ (decideSave_sheds _ _)
  -- No branch of the other requests writes the park list.
  case status | read | takeLead | yieldLead | linkSetup | cueMoves | cueClose | cueDrop | rate | pbLevel | playbackSetup
      | patchSet | bankClear | bankCopy | bankSelect | startBank | profileSet | lawLoad | lineSetup | lookSet | lookRaise
      | lookLower | grand | rackSetup =>
    refine legal.otherRow _ _ fun role s => ?_
    simp only [decideStatus, decideRead, decideTakeLead, decideYieldLead, decideLinkSetup, decideCueMoves, decideCueClose,
      decideCueDrop, decideRate, decidePbLevel, decidePlaybackSetup, decidePatchSet, State.patch, decideBankClear,
      decideBankCopy, decideBankSelect, decideStartBank, decideProfileSet, State.setProfile, decideLawLoad, decideLineSetup,
      State.setupLine, State.edge, decideLookSet, decideRaise, decideGrand, decideRackSetup, refuseFirst]
    repeat' split
    all_goals exact .of_same rfl
  case fadeTick => exact whileRunning_keeps legal (legal.shed (.of_beside s.tick_beside))
  case followDue => exact whileRunning_keeps legal (legal.shed (.of_beside (State.followDue_beside _)))
  case badTelegram | linkByteReceived => exact whileRunning_keeps legal (legal.shed (.handOn _ _))
  case rebuildEnd => exact whileRunning_keeps legal (legal.shed .endRebuild)
  case saveEnd => exact whileRunning_keeps legal (legal.shed .saveEnd)
  case saveWriteFailure => exact whileRunning_keeps legal (legal.shed .saveFailure)
  case silenceMonitorExpiry => exact whileRunning_keeps legal (legal.shed (.silence _))
  -- Nor does any branch of these events.
  case validTelegram | interByteGap | replySent | supplyDip | echoTimerExpiry =>
    exact whileRunning_keeps legal (legal.shed (.of_same rfl))
  case debounceTimerExpiry | frameStart =>
    refine whileRunning_keeps legal (legal.shed ?_)
    simp only [State.debounceExpiry, State.edge, State.frameStart]
    repeat' split
    all_goals exact .of_same rfl
  case lineInputChange =>
    refine legal.shed ?_
    unfold State.inputChange
    dsimp only
    repeat' split
    all_goals exact .of_same rfl
  -- A reset and a cold start leave no park; a dip and its restart keep them all (R179, R181).
  case resetAssert =>
    unfold State.lowerReset
    split
    · exact legal.shed .assertReset
    · exact legal.shed .assertReset
    · exact legal.shed (.of_same rfl)
  case coldStart =>
    unfold State.startCold
    split
    · exact legal.shed .coldStart
    · exact legal.shed .coldStart
    · exact legal.shed .coldStart
    · exact legal.shed (.of_same rfl)
  case dipRestart =>
    unfold State.recover
    split
    · exact legal
    · exact legal
    · exact legal.shed .dipRestart
    · exact legal.shed .assertReset

end State.ParksLegal

/-- Settles O50: PARK, FLASH and NUDGE set a legal entry in a list that has room for it (`State.ParksLegal.setPark`,
`State.ParksLegal.modPark`), a flash timer toggles one, and everything else at most removes parks (`Sheds`). -/
theorem everyStepKeepsTheParkListLegal : Obligations.EveryStepKeepsTheParkListLegal := by
  intro s t legal h
  unfold step at h
  split at h
  · cases h
    exact legal
  · next rest _ =>
    have taken : Sheds s { s with pending := rest } := .of_same rfl
    exact (legal.shed taken).exec h

end Sys2Proof.Machine
end

section
namespace Sys2Proof.Machine

variable {s t : State} {c : Fin 768}

/-! ### The look level and the park of a circuit (R111, R136) -/

/-- A look is raised by the desk flags and the stage lines under the rig's settings, and by nothing else (R133). -/
theorem State.raised_congr (rig : s.rig = t.rig) (stage : s.stage = t.stage) (flags : s.deskRaised = t.deskRaised) (k : Fin 4) :
    s.raised k = t.raised k := by
  unfold State.raised State.asserted
  rw [rig, stage, flags]

theorem State.lookLevel_congr (rig : s.rig = t.rig) (stage : s.stage = t.stage) (flags : s.deskRaised = t.deskRaised) :
    s.lookLevel c = t.lookLevel c := by
  unfold State.lookLevel State.lookCandidates
  simp only [State.raised_congr rig stage flags, rig]

theorem State.park?_congr (parks : s.parks = t.parks) : s.park? c = t.park? c := by
  unfold State.park?
  rw [parks]

theorem State.park?_ne_none (parked : ∃ x ∈ s.parks, x.circuit = c) : s.park? c ≠ none := by
  obtain ⟨x, hx, same⟩ := parked
  exact fun h => List.find?_eq_none.1 h x hx (decide_eq_true same)

theorem State.park?_eq_none (free : ∀ x ∈ s.parks, x.circuit ≠ c) : s.park? c = none :=
  List.find?_eq_none.2 fun x hx => by simpa using free x hx

/-- In a legal list the search for a circuit's park finds its one entry. -/
theorem State.ParksLegal.park?_eq_some (legal : s.ParksLegal) {x : Park} (hx : x ∈ s.parks) (same : x.circuit = c) :
    s.park? c = some x := by
  rcases found : s.park? c with _ | y
  · exact absurd found (State.park?_ne_none ⟨x, hx, same⟩)
  · have circuit : y.circuit = c := of_decide_eq_true (List.find?_some (p := fun y : Park => decide (y.circuit = c)) found)
    rw [legal.eq_of_circuit hx (List.mem_of_find?_eq_some found) (same.trans circuit.symm)]

/-! ### The output by what holds the circuit (R145, R146) -/

theorem State.rawLevel_of_look {v : Nat} (look : s.lookLevel c = some v) : s.rawLevel c = v := by
  unfold State.rawLevel
  rw [look, Option.getD_some]

theorem State.rawLevel_of_park {x : Park} (look : s.lookLevel c = none) (park : s.park? c = some x) :
    s.rawLevel c = x.level := by
  unfold State.rawLevel State.parkedLevel
  rw [look, park, Option.getD_none]

theorem State.rawLevel_of_show (look : s.lookLevel c = none) (park : s.park? c = none) : s.rawLevel c = s.showOutput c := by
  unfold State.rawLevel State.parkedLevel
  rw [look, park, Option.getD_none]

/-- The raw level of a held circuit is the look's or the park's, found alike in two states with the same rig, parks, stage lines
and desk flags. -/
theorem State.rawLevel_congr (rig : s.rig = t.rig) (parks : s.parks = t.parks) (stage : s.stage = t.stage)
    (flags : s.deskRaised = t.deskRaised) (held : (∃ x ∈ s.parks, x.circuit = c) ∨ s.lookLevel c ≠ none) :
    s.rawLevel c = t.rawLevel c := by
  have look : s.lookLevel c = t.lookLevel c := State.lookLevel_congr rig stage flags
  have park : s.park? c = t.park? c := State.park?_congr parks
  rcases named : s.lookLevel c with _ | v
  · rcases parked : s.park? c with _ | x
    · obtain entry | other := held
      · exact absurd parked (State.park?_ne_none entry)
      · exact absurd named other
    · rw [State.rawLevel_of_park named parked, State.rawLevel_of_park (look ▸ named) (park ▸ parked)]
  · rw [State.rawLevel_of_look named, State.rawLevel_of_look (look ▸ named)]

/-- Settles O55: the raw level is the look's, else the park's, else the show's; only the last reads the show. -/
theorem heldCircuitsIgnoreTheShow : Obligations.HeldCircuitsIgnoreTheShow := by
  refine ⟨fun s t c rig parks stage flags held => ?_, fun s c legal => ⟨fun v look => ?_, fun x hx same look => ?_,
    fun look free => ?_⟩⟩
  · unfold State.output
    rw [State.rawLevel_congr rig parks stage flags held, rig]
  · unfold State.output
    rw [State.rawLevel_of_look look]
  · unfold State.output
    rw [State.rawLevel_of_park look (legal.park?_eq_some hx same)]
    obtain ⟨circuit, levelA, _ | ⟨levelB, onTime, offTime, _ | _, timer⟩, owner⟩ := x <;> rfl
  · unfold State.output
    rw [State.rawLevel_of_show look (State.park?_eq_none free)]

end Sys2Proof.Machine
end

section
namespace Sys2Proof.Machine

variable {s : State} {l : Link}

/-! ### PARK, FLASH, NUDGE and UNPARK (R113 to R115, R117, R118) -/

/-- A shadow desk is a desk that does not lead; the remote is none (R162). -/
theorem State.role_shadow_iff (s : State) (l : Link) : s.role l = .shadow ↔ ∃ d, deskOf l = some d ∧ s.lead ≠ some d := by
  unfold State.role
  rcases deskOf l with _ | d
  · simp
  · by_cases leads : s.lead = some d <;> simp [leads]

/-- A park set by a request: the entry of its circuit updated in place, or a new one at the end of a list below 64. -/
theorem settle_setPark (x : Park) (code : ResultCode) : settle l (setPark x code s) =
    if ∃ y ∈ s.parks, y.circuit = x.circuit then
      State.answered { s with parks := s.parks.map fun y => if y.circuit = x.circuit then x else y } l code
    else if s.parks.length < 64 then State.answered { s with parks := s.parks ++ [x] } l code
    else s.answered l .parkFull := by
  simp only [setPark, settle_ite, settle_answer, s.isParked_iff]
  rfl

/-- The code of a taken FLASH: OK unless a time of 0 was held to 1 (R115). -/
theorem okOr_zeroTimes (on off : Byte) :
    okOr (on.toNat = 0 || off.toNat = 0) = if on = 0 ∨ off = 0 then .clamped else .ok := by
  have zero (b : Byte) : b.toNat = 0 ↔ b = 0 := BitVec.toNat_inj (y := 0#8)
  simp only [okOr, Bool.or_eq_true, decide_eq_true_eq, zero]

/-- The code of a taken NUDGE: OK unless the sum leaves 0..65535 (R117). -/
theorem okOr_nudgeSaturates (level : Nat) (delta : Int) : okOr (nudgeSaturates level delta) =
    if 0 ≤ (level : Int) + delta * 256 ∧ (level : Int) + delta * 256 ≤ 65535 then .ok else .clamped := by
  have outside : nudgeSaturates level delta = true ↔
      ¬ (0 ≤ (level : Int) + delta * 256 ∧ (level : Int) + delta * 256 ≤ 65535) := by
    simp only [nudgeSaturates, Bool.or_eq_true, decide_eq_true_eq]
    omega
  simp only [okOr, outside, ite_not]

theorem nudged_eq (level : Nat) (delta : Int) :
    nudged level delta = (max 0 (min 65535 ((level : Int) + delta * 256))).toNat := by
  unfold nudged
  omega

/-- In a legal list a change of a circuit's entry is a change of the one entry it has. -/
theorem State.ParksLegal.modPark_eq (legal : s.ParksLegal) {x : Park} (hx : x ∈ s.parks) (f : Park → Park) :
    s.modPark x.circuit f = { s with parks := s.parks.map fun y => if y.circuit = x.circuit then f x else y } := by
  unfold State.modPark State.setParks
  congr 1
  refine List.map_congr_left fun y hy => ?_
  by_cases same : y.circuit = x.circuit
  · rw [legal.eq_of_circuit hy hx same]
  · rw [if_neg same, if_neg same]

/-- NUDGE from a sender that may park: refused for a circuit not parked, else the one entry of the circuit is moved and taken
over (R117). -/
theorem settle_decideNudge {c1 c0 b : Byte} {c : Fin 768} (named : numbered 768 (be16 c1 c0) = some c)
    (other : s.role l ≠ .shadow) : settle l (decideNudge l [c1, c0, b] (s.role l) s) =
      ((s.park? c).map fun x => (s.modPark c fun y => { y with levelA := nudged y.levelA b.toInt, owner := l }).answered l
        (okOr (nudgeSaturates x.levelA b.toInt))).getD (s.answered l .badField) := by
  simp only [decideNudge, readWordByte, named, if_neg other, State.park?]
  split
  · next free => rw [free, settle_answer, Option.map_none, Option.getD_none]
  · next x found => rw [found, settle_answer, Option.map_some, Option.getD_some]

/-- UNPARK from a sender that may park: circuit 0 stands for every park of the sender (R118). -/
theorem settle_decideUnpark {c1 c0 : Byte} (range : be16 c1 c0 ≤ 768) (other : s.role l ≠ .shadow) :
    settle l (decideUnpark l [c1, c0] (s.role l) s) = State.answered
      { s with parks := s.parks.filter fun x =>
        if be16 c1 c0 = 0 then x.owner ≠ l else x.circuit.val + 1 ≠ be16 c1 c0 } l .ok := by
  simp only [decideUnpark, readWord, if_neg (Nat.not_lt.2 range), if_neg other]
  rcases named : numbered 768 (be16 c1 c0) with _ | c
  · have zero : be16 c1 c0 = 0 := (numbered_eq_none.1 named).resolve_right (Nat.not_lt.2 range)
    simp only [zero, if_true, settle_answer]
    rfl
  · have number : be16 c1 c0 = c.val + 1 := numbered_eq_some.1 named
    have nonzero : be16 c1 c0 ≠ 0 := by omega
    have circuit (x : Park) : x.circuit.val + 1 ≠ be16 c1 c0 ↔ x.circuit ≠ c := by
      rw [number, ne_eq, Nat.add_right_cancel_iff, ne_eq, Fin.ext_iff]
    simp only [nonzero, if_false, circuit, settle_answer]
    rfl

/-- Settles O49: each row's circuit and role; what PARK and FLASH set is `settle_setPark`, the rest `settle_decideNudge` and
`settle_decideUnpark`. -/
theorem parkRequestsFollowTheirRules : Obligations.ParkRequestsFollowTheirRules := by
  intro s l tag
  simp only [← s.role_shadow_iff l]
  refine ⟨fun c1 c0 v1 v0 hh => ⟨fun unnamed => ?_, fun c named => ⟨fun shadow => ?_, fun other => ?_⟩⟩,
    fun c1 c0 a1 a0 b1 b0 on off hh => ⟨fun unnamed => ?_, fun c named => ⟨fun shadow => ?_, fun other => ?_⟩⟩,
    fun c1 c0 b hh => ⟨fun unnamed => ?_, fun c named => ⟨fun shadow => ?_, fun other free => ?_,
      fun other legal x hx same => ?_⟩⟩,
    fun c1 c0 hh => ⟨fun above => ?_, fun range shadow => ?_, fun range other => ?_⟩⟩ <;>
    refine congrArg Host.Outcome.next ((requestRow_atHead _ hh).trans ?_)
  · simp only [decidePark, readWords2, be16, unnamed, settle_answer]
  · simp only [decidePark, readWords2, be16, named, if_pos shadow, settle_answer]
  · simp only [decidePark, readWords2, be16, named, if_neg other, settle_setPark]
  · simp only [decideFlash, readFlash, be16, unnamed, settle_answer]
  · simp only [decideFlash, readFlash, be16, named, if_pos shadow, settle_answer]
  · simp only [decideFlash, readFlash, be16, named, if_neg other, okOr_zeroTimes, settle_setPark]
    rfl
  · simp only [decideNudge, readWordByte, be16, unnamed, settle_answer]
  · simp only [decideNudge, readWordByte, be16, named, if_pos shadow, settle_answer]
  · rw [settle_decideNudge named other, State.park?_eq_none free, Option.map_none, Option.getD_none]
  · rw [settle_decideNudge named other, legal.park?_eq_some hx same, Option.map_some, Option.getD_some, ← same,
      legal.modPark_eq hx, nudged_eq, okOr_nudgeSaturates]
  · simp only [decideUnpark, readWord, be16, if_pos above, settle_answer]
  · simp only [decideUnpark, readWord, be16, if_neg (Nat.not_lt.2 range), if_pos shadow, settle_answer]
  · exact settle_decideUnpark range other

end Sys2Proof.Machine
end

section
namespace Sys2Proof.Machine

variable {s : State} {c : Fin 768}

/-! ### Asserted lines and raised looks (R123, R133) -/

theorem State.asserted_iff (s : State) (n : Fin 4) :
    s.asserted n = true ↔ (s.line n).debounced = some (s.rig.lines.get n).active := decide_eq_true_iff

theorem State.raised_iff (s : State) (k : Fin 4) :
    s.raised k = true ↔ s.deskRaised.get k = true ∨ ∃ n, (s.line n).debounced = some (s.rig.lines.get n).active ∧
      (s.rig.lines.get n).action = .look k := by
  simp only [State.raised, Bool.or_eq_true, List.any_eq_true, List.mem_ofFn, exists_exists_eq_and, Bool.and_eq_true,
    decide_eq_true_eq, s.asserted_iff]

/-! ### The look level (R136) -/

/-- The highest of a list that is not empty is the one member that no other exceeds. -/
theorem highest_eq_iff {l : List Nat} (ne : l ≠ []) {v : Nat} : highest l = v ↔ v ∈ l ∧ ∀ w ∈ l, w ≤ v := by
  obtain ⟨bounds, attained⟩ := highest_spec l
  have attained : highest l ∈ l := by
    obtain ⟨w, hw⟩ := List.exists_mem_of_ne_nil l ne
    refine attained.elim (fun zero => ?_) id
    rwa [show highest l = w by have := bounds w hw; omega]
  exact ⟨fun h => h ▸ ⟨attained, bounds⟩, fun ⟨hv, most⟩ => le_antisymm (most _ attained) (bounds _ hv)⟩

theorem State.mem_lookCandidates {p v : Nat} : (p, v) ∈ s.lookCandidates c ↔
    ∃ k, (s.raised k = true ∧ (s.rig.looks.get k).levelFor c = some v) ∧ (s.rig.looks.get k).priority = p := by
  simp only [State.lookCandidates, List.mem_filterMap, List.mem_ofFn, exists_exists_eq_and]
  refine exists_congr fun k => ?_
  by_cases up : s.raised k = true
  · simp [up, and_comm]
  · simp [up]

theorem State.lookLevel_eq_none : s.lookLevel c = none ↔ s.lookCandidates c = [] := by
  unfold State.lookLevel
  rcases s.lookCandidates c with _ | ⟨x, rest⟩ <;> simp

/-- The highest level among the pairs of the highest priority belongs to the one pair that no other outranks. -/
theorem highest_of_top_eq_iff {cs : List (Nat × Nat)} (ne : cs ≠ []) {v : Nat} :
    highest ((cs.filter fun x => x.1 = highest (cs.map (·.1))).map (·.2)) = v ↔
      ∃ p, (p, v) ∈ cs ∧ ∀ q w, (q, w) ∈ cs → q < p ∨ (q = p ∧ w ≤ v) := by
  obtain ⟨attained, bounds⟩ := (highest_eq_iff (mt List.map_eq_nil_iff.1 ne)).1 (Eq.refl (highest (cs.map (·.1))))
  generalize highest (cs.map (·.1)) = top at attained bounds
  simp only [List.mem_map, Prod.exists, exists_and_right, exists_eq_right, forall_exists_index] at attained bounds
  obtain ⟨u, first⟩ := attained
  have of_top (w : Nat) : w ∈ (cs.filter fun x => x.1 = top).map (·.2) ↔ (top, w) ∈ cs := by simp
  rw [highest_eq_iff (List.ne_nil_of_mem ((of_top u).2 first))]
  simp only [of_top]
  constructor
  · rintro ⟨named, most⟩
    refine ⟨top, named, fun q w other => (lt_or_eq_of_le (bounds q w other)).imp_right ?_⟩
    rintro rfl
    exact ⟨rfl, most w other⟩
  · rintro ⟨p, named, outranks⟩
    obtain rfl : top = p := by
      have below := bounds p v named
      have above := outranks top u first
      omega
    exact ⟨named, fun w other => ((outranks top w other).resolve_left (lt_irrefl top)).2⟩

theorem State.lookLevel_eq_some {v : Nat} : s.lookLevel c = some v ↔
    ∃ p, (p, v) ∈ s.lookCandidates c ∧ ∀ q w, (q, w) ∈ s.lookCandidates c → q < p ∨ (q = p ∧ w ≤ v) := by
  unfold State.lookLevel
  rcases s.lookCandidates c with _ | ⟨x, rest⟩
  · simp
  · exact Option.some_inj.trans (highest_of_top_eq_iff (List.cons_ne_nil x rest))

/-- Settles O53: the candidates are the looks that name the circuit, and the look level is the highest of their top priority. -/
theorem lookLevelIsTheHighestOfTheTopPriority : Obligations.LookLevelIsTheHighestOfTheTopPriority := by
  intro s c names
  have candidate (p v : Nat) : (p, v) ∈ s.lookCandidates c ↔ ∃ k, names k v ∧ (s.rig.looks.get k).priority = p := by
    simp only [State.mem_lookCandidates, State.raised_iff, names]
  refine ⟨?_, fun v => ?_⟩
  · simp only [State.lookLevel_eq_none, List.eq_nil_iff_forall_not_mem, Prod.forall, candidate]
    exact ⟨fun h k v named => h _ v ⟨k, named, rfl⟩, fun h p v ⟨k, named, _⟩ => h k v named⟩
  · simp only [State.lookLevel_eq_some, candidate]
    constructor
    · rintro ⟨_, ⟨k, named, rfl⟩, top⟩
      exact ⟨k, named, fun k' v' named' => top _ v' ⟨k', named', rfl⟩⟩
    · rintro ⟨k, named, top⟩
      refine ⟨_, ⟨k, named, rfl⟩, ?_⟩
      rintro _ w ⟨k', named', rfl⟩
      exact top k' w named'

end Sys2Proof.Machine
end

section
namespace Sys2Proof.Machine

variable (s : State)

/-! ### Changes of assertion (R126, R127) -/

theorem State.line_setLine_self (n : Fin 4) (x : StageLine) : (s.setLine n x).line n = x := Table.get_set_self s.stage n x

theorem LatchEdges.selects_true_iff (e : LatchEdges) : e.selects true = true ↔ e = .assertion ∨ e = .both := by
  cases e <;> simp [LatchEdges.selects]

theorem LatchEdges.selects_false_iff (e : LatchEdges) : e.selects false = true ↔ e = .release ∨ e = .both := by
  cases e <;> simp [LatchEdges.selects]

/-- A change of assertion that the latch edges select is a beginning or an end that they name (R127). -/
theorem LatchEdges.selects_change_iff (e : LatchEdges) (now was : Bool) : now ≠ was ∧ e.selects now = true ↔
    (now = true ∧ ¬ was = true ∧ (e = .assertion ∨ e = .both)) ∨ (was = true ∧ ¬ now = true ∧ (e = .release ∨ e = .both)) := by
  cases now
  · simp [e.selects_false_iff, eq_comm]
  · simp [e.selects_true_iff, eq_comm]

/-- The notice of an edge, in the words of any statement of the line's assertion before and after. -/
theorem State.edge_eq {n : Fin 4} {before : Bool} {e : LatchEdges} {now was : Prop} [Decidable now] [Decidable was]
    (edges : (s.rig.lines.get n).edges = e) (after : s.asserted n = true ↔ now) (earlier : before = true ↔ was) :
    s.edge n before = if (now ∧ ¬ was ∧ (e = .assertion ∨ e = .both)) ∨ (was ∧ ¬ now ∧ (e = .release ∨ e = .both))
      then s.notifyAll (.lineEdge n) else s := by
  refine if_congr ?_ rfl rfl
  rw [LatchEdges.selects_change_iff, edges, after, earlier]

/-! ### Debounce (R125) -/

theorem StageLine.change_eq (x : StageLine) (time : Nat) (v : LineLevel) : x.change time v =
    { x with
      input := v
      timer := match x.debounced with
        | none => some ⟨v, time⟩
        | some d => if x.timer = none ∧ d ≠ v then some ⟨v, time⟩ else none } := by
  unfold StageLine.change
  rcases x.debounced with _ | d
  · rfl
  · have starts : (x.timer.isNone && decide (d ≠ v)) = true ↔ x.timer = none ∧ d ≠ v := by simp
    simp only [starts]
    split <;> rfl

/-- Settles O51: an input change is `StageLine.change_eq`, an expiry the edge of `State.edge_eq`. -/
theorem stageLinesDebounceTheirInputs : Obligations.StageLinesDebounceTheirInputs := by
  intro s n running x time
  have expires : exec (.debounceTimerExpiry n) s = .next (s.debounceExpiry n) :=
    congrArg Host.Outcome.next (whileRunning_running running)
  refine ⟨fun v same => congrArg Host.Outcome.next (if_pos same), fun v change => congrArg Host.Outcome.next ?_,
    fun stopped => ?_, fun t timing => ?_⟩
  · exact (if_neg change).trans ((if_pos running).trans (congrArg (s.setLine n) (x.change_eq time v)))
  · rw [expires, State.debounceExpiry, stopped]
  · intro active was now edges u
    have after : u.asserted n = true ↔ now := by
      rw [u.asserted_iff, s.line_setLine_self, State.setLine_rig, Option.some_inj]
    rw [expires, State.debounceExpiry, show (s.line n).timer = some t from timing]
    exact congrArg Host.Outcome.next (u.edge_eq rfl after (s.asserted_iff n))

/-! ### LINE_SETUP, LOOK_RAISE and LOOK_LOWER (R130, R135) -/

theorem settle_decideRaise (l : Link) (x : Byte) (b : Bool) : settle l (decideRaise b l [x] (s.role l) s) =
    match deskOf l, numbered 4 x.toNat with
    | none, _ => s.answered l .role
    | some _, none => s.answered l .badField
    | some d, some k =>
      if s.lead ≠ some d then s.answered l .notLead
      else State.answered { s with deskRaised := s.deskRaised.set k b } l .ok := by
  rcases hd : deskOf l with _ | d
  · simp only [decideRaise, readByte, hd, settle_answer]
  simp only [decideRaise, readByte, hd]
  rcases numbered 4 x.toNat with _ | k
  · rfl
  simp only [settle_ite, settle_answer, ne_eq, s.role_lead_iff hd]
  rfl

/-- New settings of a line: written, with a running timer restarted at a changed debounce, and then the edge between the old
active level and the new (R130). -/
theorem State.setupLine_eq (n : Fin 4) (active : LineLevel) (edges : LatchEdges) (action : LineAction) (time : Nat) :
    let old := s.rig.lines.get n
    let was : Prop := (s.line n).debounced = some old.active
    let now : Prop := (s.line n).debounced = some active
    let u : State := { s with rig := { s.rig with lines := s.rig.lines.set n ⟨active, edges, action, time⟩ } }
    let v := if old.debounce = time then u
      else u.setLine n { s.line n with timer := (s.line n).timer.map fun t => ⟨t.timing, time⟩ }
    s.setupLine n ⟨active, edges, action, time⟩ =
      if (now ∧ ¬ was ∧ (edges = .assertion ∨ edges = .both)) ∨ (was ∧ ¬ now ∧ (edges = .release ∨ edges = .both))
      then v.notifyAll (.lineEdge n) else v := by
  intro old was now u v
  have rig : v.rig.lines.get n = ⟨active, edges, action, time⟩ := by
    rw [show v.rig = u.rig by unfold v; split <;> rfl]
    exact Table.get_set_self _ _ _
  have debounced : (v.line n).debounced = (s.line n).debounced := by
    unfold v
    split
    · rfl
    · rw [u.line_setLine_self]
  have after : v.asserted n = true ↔ now := by rw [v.asserted_iff, debounced, rig]
  exact v.edge_eq (congrArg LineSettings.edges rig) after (s.asserted_iff n)

/-- Settles O52: each row's fields, role and save; the effect of new settings is `State.setupLine_eq`. -/
theorem lineSetupAndLookFlagsFollowTheirRules : Obligations.LineSetupAndLookFlagsFollowTheirRules := by
  refine ⟨fun s l tag x a e act look db hh => ?_, fun s l tag x => ⟨fun hh => ?_, fun hh => ?_⟩⟩ <;>
    refine congrArg Host.Outcome.next ((requestRow_atHead _ hh).trans ?_)
  · rcases hd : deskOf l with _ | d
    · simp only [decideLineSetup, readLineSetup, hd, settle_answer]
    simp only [decideLineSetup, readLineSetup, hd]
    rcases numbered 4 x.toNat with _ | n
    · rfl
    rcases activeValue a.toNat with _ | active
    · rfl
    rcases edgesValue e.toNat with _ | edges
    · rfl
    rcases actionValue act.toNat look.toNat with _ | action
    · rfl
    simp only [settle_refuseFirst_lead s hd, settle_refuseFirst_cons, savingRig_iff, refuseFirst_nil, settle_answer,
      okOr_clampTo (show 10 ≤ 250 by decide), s.setupLine_eq]
    rfl
  · exact settle_decideRaise s l x true
  · exact settle_decideRaise s l x false

end Sys2Proof.Machine
end

section
namespace Sys2Proof.Machine

variable (s : State)

/-! ### The steps of the merge (R142 to R144) -/

/-- The channel level is at least every playback level of the channel and equals one of them (R142). -/
theorem State.channelLevel_spec (ch : Fin 512) :
    (∀ p, s.playbackLevel p ch ≤ s.channelLevel ch) ∧ ∃ p, s.channelLevel ch = s.playbackLevel p ch := by
  unfold State.channelLevel
  constructor
  · intro p
    match p with
    | 0 => exact le_max_of_le_left (le_max_left _ _)
    | 1 => exact le_max_of_le_left (le_max_right _ _)
    | 2 => exact le_max_of_le_right (le_max_left _ _)
    | 3 => exact le_max_of_le_right (le_max_right _ _)
  · obtain first | last :=
      max_choice (max (s.playbackLevel 0 ch) (s.playbackLevel 1 ch)) (max (s.playbackLevel 2 ch) (s.playbackLevel 3 ch))
    · rw [first]
      exact (max_choice _ _).elim (fun h => ⟨0, h⟩) (fun h => ⟨1, h⟩)
    · rw [last]
      exact (max_choice _ _).elim (fun h => ⟨2, h⟩) (fun h => ⟨3, h⟩)

theorem State.showLevel_of_blackout (dark : s.blackout = true) (ch : Fin 512) : s.showLevel ch = 0 := if_pos dark

theorem State.showLevel_of_not_blackout (bright : s.blackout = false) (ch : Fin 512) :
    s.showLevel ch = s.channelLevel ch * s.grand / Config.full := if_neg (by rw [bright]; decide)

/-- The contribution of a feeder at a level of its channel under the grand master (R143, R144). -/
def State.contribution (f : Feeder) (level : Nat) : Nat := level * s.grand / Config.full * f.percent / 100

theorem State.contribution_mono (f : Feeder) {v w : Nat} (h : v ≤ w) : s.contribution f v ≤ s.contribution f w := by
  unfold State.contribution
  gcongr

/-- Outside blackout the show output is the highest contribution of the feeders at their channel levels. -/
theorem State.showOutput_of_not_blackout (bright : s.blackout = false) (c : Fin 768) :
    s.showOutput c = highest ((s.liveMap.get c).map fun f => s.contribution f (s.channelLevel f.channel)) := by
  unfold State.showOutput State.contribution
  simp only [s.showLevel_of_not_blackout bright]

/-- Under blackout every feeder contributes 0 (R143). -/
theorem State.showOutput_of_blackout (dark : s.blackout = true) (c : Fin 768) : s.showOutput c = 0 := by
  obtain zero | ⟨f, -, attained⟩ := (highest_spec _).2.imp_right List.mem_map.1
  · exact zero
  · exact attained.symm.trans (by rw [s.showLevel_of_blackout dark, Nat.zero_mul, Nat.zero_div])

/-- Settles O54: the highest of the feeders, each at the highest of the playback levels; a contribution grows with its level. -/
theorem showOutputIsTheHighestContribution : Obligations.ShowOutputIsTheHighestContribution := by
  refine fun s c => ⟨fun dark => s.showOutput_of_blackout dark c, fun bright => ?_⟩
  obtain ⟨bounds, attained⟩ := highest_spec ((s.liveMap.get c).map fun f => s.contribution f (s.channelLevel f.channel))
  rw [← s.showOutput_of_not_blackout bright] at bounds attained
  refine ⟨fun f hf p => ?_, attained.imp_right fun member => ?_⟩
  · have atChannelLevel := bounds _ (List.mem_map_of_mem hf)
    exact (s.contribution_mono f ((s.channelLevel_spec f.channel).1 p)).trans atChannelLevel
  · obtain ⟨f, hf, same⟩ := List.mem_map.1 member
    obtain ⟨p, level⟩ := (s.channelLevel_spec f.channel).2
    exact ⟨f, hf, p, same.symm.trans (congrArg (s.contribution f) level)⟩

/-! ### GRAND (R149) -/

/-- A setting byte other than 0 and 1 is no switch value; 1 is ON and 0 is OFF (R184). -/
theorem switchValue_byte (b : Byte) :
    switchValue b.toNat = if b ≠ 0 ∧ b ≠ 1 then none else some (decide (b = 1)) := by
  have zero : b.toNat = 0 ↔ b = 0 := BitVec.toNat_inj (y := 0)
  have one : b.toNat = 1 ↔ b = 1 := BitVec.toNat_inj (y := 1)
  unfold switchValue
  simp only [zero, one]
  by_cases off : b = 0
  · subst off; rfl
  by_cases on : b = 1
  · subst on; rfl
  · simp only [if_neg off, if_neg on, if_pos (And.intro off on)]

/-- Settles O57: the fields and the role in R149's order, then the write. -/
theorem grandFollowsItsRule : Obligations.GrandFollowsItsRule := by
  intro s l tag hi lo b hh
  refine congrArg Host.Outcome.next ((requestRow_atHead _ hh).trans ?_)
  rcases hd : deskOf l with _ | d
  · simp only [decideGrand, readWordByte, hd, settle_answer]
  simp only [decideGrand, readWordByte, hd, switchValue_byte]
  by_cases bad : b ≠ 0 ∧ b ≠ 1
  · simp only [if_pos bad, settle_answer]
  · simp only [if_neg bad, settle_ite, settle_answer, ne_eq, s.role_lead_iff hd]
    rfl

end Sys2Proof.Machine
end

section
namespace Sys2Proof.Machine

/-! ### The decision of a request row (R157, R184) -/

/-- What the block that owns a request row decides of its request. -/
def decisionOf : Instr → Role → State → Verdict
  | .status l _ body => decideStatus l body
  | .read l _ body => decideRead l body
  | .takeLead l _ body => decideTakeLead l body
  | .yieldLead l _ body => decideYieldLead l body
  | .linkSetup l _ body => decideLinkSetup l body
  | .cueOpen l _ body => decideCueOpen l body
  | .cueMoves l _ body => decideCueMoves l body
  | .cueClose l _ body => decideCueClose l body
  | .cueDrop l _ body => decideCueDrop l body
  | .go l _ body => decideGo l body
  | .back l _ body => decideBack l body
  | .manual l _ body => decideManual l body
  | .release l _ body => decideRelease l body
  | .hold l _ body => decideHolds true l body
  | .resume l _ body => decideHolds false l body
  | .rate l _ body => decideRate l body
  | .pbLevel l _ body => decidePbLevel l body
  | .playbackSetup l _ body => decidePlaybackSetup l body
  | .patchSet l _ body => decidePatchSet l body
  | .bankClear l _ body => decideBankClear l body
  | .bankCopy l _ body => decideBankCopy l body
  | .bankSelect l _ body => decideBankSelect l body
  | .startBank l _ body => decideStartBank l body
  | .profileSet l _ body => decideProfileSet l body
  | .lawLoad l _ body => decideLawLoad l body
  | .park l _ body => decidePark l body
  | .flash l _ body => decideFlash l body
  | .nudge l _ body => decideNudge l body
  | .unpark l _ body => decideUnpark l body
  | .lineSetup l _ body => decideLineSetup l body
  | .lookSet l _ body => decideLookSet l body
  | .lookRaise l _ body => decideRaise true l body
  | .lookLower l _ body => decideRaise false l body
  | .grand l _ body => decideGrand l body
  | .rackSetup l _ body => decideRackSetup l body
  | .save l _ body => decideSave l body
  | _ => decideUnknownKind

/-- A request row runs its request through its decision; UNKNOWN_KIND does so for the kinds that R184 does not list. -/
theorem exec_request {i : Instr} {l : Link} {r : Request} (h : i.request? = some (l, r))
    (unlisted : ∀ l k tag body, i = .unknownKind l k tag body → knownKind k = false) (s : State) :
    exec i s = .next (requestRow l r (decisionOf i) s) := by
  cases i <;> cases h
  case unknownKind =>
    exact congrArg Host.Outcome.next (if_neg (Bool.not_eq_true _ ▸ unlisted _ _ _ _ rfl))
  all_goals rfl

theorem exec_wellFormed {i : Instr} {l : Link} {r : Request} (hw : WellFormed i = true) (h : i.request? = some (l, r))
    (s : State) : exec i s = .next (requestRow l r (decisionOf i) s) := by
  refine exec_request h ?_ s
  rintro l k tag body rfl
  simpa using (Bool.and_eq_true_iff.1 hw).2

end Sys2Proof.Machine
end

section
namespace Sys2Proof.Machine

variable {s t u : State}

/-! ### What a decision leaves of the ports and the lead (R157, R158, R168) -/

/-- A port that stands but for its notices, its fill record and its monitor, which still runs exactly while the link is LIVE. -/
structure Port.Stands (p q : Port) : Prop where
  state : q.state = p.state
  receiver : q.receiver = p.receiver
  queue : q.queue = p.queue
  head : q.head = p.head
  monitor : (p.monitor.isSome = true ↔ p.state = .live) → (q.monitor.isSome = true ↔ q.state = .live)

theorem Port.Stands.refl (p : Port) : p.Stands p := ⟨rfl, rfl, rfl, rfl, id⟩

theorem Port.Stands.trans {p q r : Port} (h : p.Stands q) (k : q.Stands r) : p.Stands r :=
  ⟨k.state.trans h.state, k.receiver.trans h.receiver, k.queue.trans h.queue, k.head.trans h.head,
    fun runs => k.monitor (h.monitor runs)⟩

theorem Port.Stands.of_eq {p q : Port} (h : q = { p with notices := q.notices, fill := q.fill }) : p.Stands q := by
  rw [h]
  exact ⟨rfl, rfl, rfl, rfl, id⟩

/-- From `s` to `t` the part goes on as it was and every port stands. -/
structure SamePorts (s t : State) : Prop where
  power : t.power = s.power
  pending : t.pending = s.pending
  port : ∀ l, (s.port l).Stands (t.port l)

theorem SamePorts.trans (h : SamePorts s t) (k : SamePorts t u) : SamePorts s u :=
  ⟨k.power.trans h.power, k.pending.trans h.pending, fun l => (h.port l).trans (k.port l)⟩

/-- From `s` to `t` the lead stands too, and so do the save and the rebuild in flight. -/
structure SameLinks (s t : State) : Prop extends SamePorts s t where
  lead : t.lead = s.lead
  saving : t.saving = s.saving
  rebuild : t.rebuild = s.rebuild

theorem SameLinks.of_eq (power : t.power = s.power) (pending : t.pending = s.pending) (lead : t.lead = s.lead)
    (saving : t.saving = s.saving) (rebuild : t.rebuild = s.rebuild)
    (port : ∀ l, t.port l = { s.port l with notices := (t.port l).notices, fill := (t.port l).fill }) : SameLinks s t :=
  ⟨⟨power, pending, fun l => .of_eq (port l)⟩, lead, saving, rebuild⟩

theorem SameLinks.refl (s : State) : SameLinks s s := .of_eq rfl rfl rfl rfl rfl fun _ => rfl

theorem SameLinks.trans (h : SameLinks s t) (k : SameLinks t u) : SameLinks s u :=
  ⟨h.toSamePorts.trans k.toSamePorts, k.lead.trans h.lead, k.saving.trans h.saving, k.rebuild.trans h.rebuild⟩

theorem SameLinks.of_beside (h : SameBeside s t) : SameLinks s t := by
  obtain ⟨rest, port⟩ := h
  refine .of_eq ?_ ?_ ?_ ?_ ?_ fun l => by rw [port l]
  all_goals rw [rest]

theorem SameLinks.of_fills (h : FillsOnly s t) : SameLinks s t := by
  obtain ⟨port, -, rest⟩ := h
  refine .of_eq ?_ ?_ ?_ ?_ ?_ fun l => by rw [port l]
  all_goals rw [rest]

theorem SameLinks.notifyAll (n : Notice) : SameLinks s (s.notifyAll n) := .of_beside (s.notifyAll_beside n)

theorem SameLinks.notifyDesks (n : Notice) : SameLinks s (s.notifyDesks n) := .of_beside (s.notifyDesks_beside n)

theorem SameLinks.setRig (x : RigRecord) : SameLinks s (s.setRig x) := .of_eq rfl rfl rfl rfl rfl fun _ => rfl

theorem SameLinks.restartMonitors (s : State) : SameLinks s s.restartMonitors := by
  refine ⟨⟨rfl, rfl, fun l => ?_⟩, rfl, rfl, rfl⟩
  rw [State.port_restartMonitors]
  split
  · next live => exact ⟨rfl, rfl, rfl, rfl, fun _ => iff_of_true rfl live⟩
  · exact .refl _

theorem SameLinks.setHolds (ps : List (Fin 4)) (b : Bool) : SameLinks s (s.setHolds ps b) := by
  rw [s.setHolds_eq]
  exact .of_eq rfl rfl rfl rfl rfl fun _ => rfl

theorem SameLinks.edge (n : Fin 4) (before : Bool) : SameLinks s (s.edge n before) := by
  unfold State.edge
  split
  · exact .notifyAll _
  · exact .refl s

theorem SameLinks.debounceExpiry (n : Fin 4) : SameLinks s (s.debounceExpiry n) := by
  unfold State.debounceExpiry
  split
  · exact .refl s
  · exact SameLinks.trans (t := s.setLine n _) (.of_eq rfl rfl rfl rfl rfl fun _ => rfl) (.edge _ _)

theorem SameLinks.takeRelease (d : Desk) (p : Fin 4) : SameLinks s (s.takeRelease d p) := by
  obtain h | h := State.takeRelease_cases d p <;> rw [h]
  · exact .of_beside (s.modPlayback_beside p _)
  · exact .of_beside ((s.modPlayback_beside p _).trans (State.plainStart_beside _ _ _ _))

/-- An item made INVALID is outside the links. -/
theorem SameLinks.invalidate (cls : SaveClass) : SameLinks s (s.invalidate cls) := by
  rw [s.invalidate_others]
  exact .of_eq rfl rfl rfl rfl rfl fun _ => rfl

theorem SameLinks.storeWorking (cls : SaveClass) : SameLinks s (s.storeWorking cls) := by
  cases cls <;> exact .of_eq rfl rfl rfl rfl rfl fun _ => rfl

theorem SameLinks.firstFrames (s : State) : SameLinks s s.firstFrames :=
  SameLinks.trans (t := ((s.freshFrame 0).freshFrame 1).freshFrame 2) (.of_eq rfl rfl rfl rfl rfl fun _ => rfl) (.notifyAll _)

/-- What a request of link `l` and kind `k` makes of state `s`. A reply leaves every port standing but for its own head, passes the
lead to no desk but `l`'s, and carries a body and notices only where R168 and R183 let it; a hold begins the one timed operation
that `l`'s desk then awaits (R157, R175, R88). -/
inductive Decided (l : Link) (k : Byte) (s : State) : Verdict → Prop
  | reply {code body carried t} (same : SamePorts s t) (lead : ∀ d, t.lead = some d → s.lead = some d ∨ linkOf d = l)
      (saving : t.saving = s.saving) (rebuild : t.rebuild = s.rebuild)
      (page : body ≠ [] → code = .ok ∧ (k = kindStatus ∨ k = kindRead)) (notices : carried ≠ {} → k = kindStatus) :
      Decided l k s (.reply code body carried t)
  | hold {d t} (sender : linkOf d = l) (same : SamePorts s t) (lead : t.lead = s.lead)
      (begun : (k = kindSave ∧ s.saving = none ∧ t.saving.map (·.link) = some d ∧ t.rebuild = s.rebuild) ∨
        (k = kindBankSelect ∧ s.rebuild = none ∧ t.rebuild.bind (·.replyTo) = some d ∧ t.saving = s.saving)) :
      Decided l k s (.hold t)

theorem linkOf_of_deskOf {l : Link} {d : Desk} (h : deskOf l = some d) : linkOf d = l := by
  cases l <;> cases h <;> rfl

section
variable {l : Link} {k : Byte} {taken : Verdict}

theorem Decided.answer {code : ResultCode} (same : SameLinks s t) : Decided l k s (answer code t) :=
  .reply same.toSamePorts (fun _ h => .inl (same.lead ▸ h)) same.saving same.rebuild (absurd rfl) (absurd rfl)

theorem Decided.refused (code : ResultCode) : Decided l k s (Machine.answer code s) := .answer (.refl s)

theorem Decided.refuseFirst (checks : List (Bool × ResultCode))
    (h : (∀ c ∈ checks, c.1 = false) → Decided l k s taken) : Decided l k s (refuseFirst checks s taken) := by
  unfold Machine.refuseFirst
  split
  · exact .refused _
  · next none_holds => exact h (by simpa using none_holds)

end

/-! ### The decisions one by one -/

section
variable (l : Link) (k : Byte) (body : List Byte) (role : Role) (s : State)

theorem decideStatus_decided : Decided l kindStatus s (decideStatus l body role s) := by
  unfold decideStatus
  split
  · exact .refused _
  · exact .reply (SameLinks.refl s).toSamePorts (fun _ => .inl) rfl rfl (fun _ => ⟨rfl, .inl rfl⟩) fun _ => rfl

theorem decideRead_decided : Decided l kindRead s (decideRead l body role s) := by
  unfold decideRead
  repeat' split
  · exact .refused _
  · exact .refused _
  · exact .reply (SameLinks.refl s).toSamePorts (fun _ => .inl) rfl rfl (fun _ => ⟨rfl, .inr rfl⟩) (absurd rfl)

/-- A taken lead is the sender's (R163). -/
theorem decideTakeLead_decided : Decided l k s (decideTakeLead l body role s) := by
  have passed {d : Desk} (hd : deskOf l = some d) {t : State} (same : SamePorts s t) (lead : t.lead = some d)
      (saving : t.saving = s.saving) (rebuild : t.rebuild = s.rebuild) : Decided l k s (answer .ok t) := by
    refine .reply same (fun e he => .inr ?_) saving rebuild (absurd rfl) (absurd rfl)
    obtain rfl : d = e := Option.some.inj (lead.symm.trans he)
    exact linkOf_of_deskOf hd
  have set (d : Option Desk) : SamePorts s (s.setLead d) := ⟨rfl, rfl, fun _ => .refl _⟩
  unfold decideTakeLead
  repeat' split
  any_goals exact .refused _
  · next hd _ _ _ _ _ => exact passed hd (set _) rfl rfl rfl
  · next hd _ _ _ _ _ _ => exact passed hd ((set _).trans (SameLinks.notifyDesks _).toSamePorts) rfl rfl rfl

theorem decideYieldLead_decided : Decided l k s (decideYieldLead l body role s) := by
  unfold decideYieldLead
  repeat' split
  any_goals exact .refused _
  · exact .reply ⟨rfl, rfl, fun _ => .refl _⟩ nofun rfl rfl (absurd rfl) (absurd rfl)

theorem decideLinkSetup_decided : Decided l k s (decideLinkSetup l body role s) := by
  unfold decideLinkSetup
  repeat' split
  any_goals exact .refused _
  · exact .refuseFirst _ fun _ => .answer ((SameLinks.setRig _).trans (.restartMonitors _))

theorem openSlot_decided (d : Desk) (lead : Bool) (i : Fin 32) (h : CueHeader) (code : ResultCode) (same : SameLinks s t) :
    Decided l k s (openSlot d lead i h code t) := by
  have absorbed (cue : Nat) : Decided l k s (absorb d i cue t) :=
    .answer (same.trans (.of_fills (State.setFill_only _ _ _)))
  have replaced {v : State} (same : SameLinks s v) (n : Nat) : Decided l k s (replaceSlot d i h n code v) := by
    unfold replaceSlot
    split
    · exact .answer same
    · exact .answer (same.trans (.of_fills (State.startFill_only _ _ _ _)))
  have diverged (n : Nat) : Decided l k s (divergedOpen d lead i h n code t) := by
    have told := same.trans (.notifyDesks .diverged)
    unfold divergedOpen
    dsimp only
    split
    · exact replaced told n
    · exact .answer told
  unfold openSlot
  rcases t.slot i with _ | ⟨old, ms, w⟩ | ⟨old, ms⟩ | ⟨old, ms⟩ <;> dsimp only
  · exact replaced same 0
  all_goals repeat' split
  · exact absorbed _
  · exact diverged _
  · exact replaced same _
  · exact absorbed _
  · exact diverged _
  · exact absorbed _
  · exact .answer same

theorem decideCueOpen_decided : Decided l k s (decideCueOpen l body role s) := by
  unfold decideCueOpen
  repeat' split
  any_goals exact .refused _
  · exact openSlot_decided _ _ _ _ _ _ _ _ (.of_fills (s.endFill_only _))

theorem decideCueClose_decided : Decided l k s (decideCueClose l body role s) := by
  unfold decideCueClose
  repeat' split
  any_goals exact .refused _
  · exact .answer (.of_fills (s.setFill_only _ _))
  · exact .answer (SameLinks.trans (t := s.setSlot _ _) (.of_eq rfl rfl rfl rfl rfl fun _ => rfl)
      (.of_fills (State.setFill_only _ _ _)))
  · exact .answer (.of_fills (s.emptySlot_only _))

theorem decideCueDrop_decided : Decided l k s (decideCueDrop l body role s) := by
  unfold decideCueDrop
  repeat' split
  any_goals exact .refused _
  all_goals exact .answer (.of_fills (s.emptySlot_only _))

theorem decideGo_decided : Decided l k s (decideGo l body role s) := by
  unfold decideGo
  repeat' split
  any_goals exact .refused _
  all_goals refine .refuseFirst _ fun _ => ?_
  any_goals exact .refused _
  · exact .answer (.of_beside (State.takeGo_beside _ _ _ _ _))

theorem decideBack_decided : Decided l k s (decideBack l body role s) := by
  unfold decideBack
  repeat' split
  any_goals exact .refused _
  all_goals refine .refuseFirst _ fun _ => ?_
  any_goals exact .refused _
  next p _ _ _ _ _ _ => exact .answer (.of_beside ((s.modPlayback_beside p _).trans (State.plainStart_beside _ p _ _)))

theorem decideManual_decided : Decided l k s (decideManual l body role s) := by
  unfold decideManual
  repeat' split
  any_goals exact .refused _
  · exact .refuseFirst _ fun _ => .answer (.of_beside (State.plainStart_beside _ _ _ _))

theorem decideRelease_decided : Decided l k s (decideRelease l body role s) := by
  unfold decideRelease
  repeat' split
  any_goals exact .refused _
  · exact .refuseFirst _ fun _ => .answer (.takeRelease _ _)

theorem decideHolds_decided (b : Bool) : Decided l k s (decideHolds b l body role s) := by
  unfold decideHolds
  repeat' split
  any_goals exact .refused _
  · exact .answer (.setHolds _ b)

theorem decideLineSetup_decided : Decided l k s (decideLineSetup l body role s) := by
  unfold decideLineSetup
  repeat' split
  any_goals exact .refused _
  refine .refuseFirst _ fun _ => .answer ?_
  unfold State.setupLine
  dsimp only
  refine SameLinks.trans ?_ (.edge _ _)
  split <;> exact .of_eq rfl rfl rfl rfl rfl fun _ => rfl

theorem decideProfileSet_decided : Decided l k s (decideProfileSet l body role s) := by
  unfold decideProfileSet
  repeat' split
  any_goals exact .refused _
  refine .refuseFirst _ fun _ => .answer ?_
  unfold State.setProfile
  dsimp only
  split
  · exact SameLinks.trans (t := s.setProfiles _) (.of_eq rfl rfl rfl rfl rfl fun _ => rfl) (.notifyAll _)
  · exact .of_eq rfl rfl rfl rfl rfl fun _ => rfl

/-- A select begins its rebuild, with none in flight before it (R86). -/
theorem decideBankSelect_decided : Decided l kindBankSelect s (decideBankSelect l body role s) := by
  unfold decideBankSelect
  repeat' split
  any_goals exact .refused _
  next d hd _ n _ =>
    refine .refuseFirst _ fun pass => .hold (linkOf_of_deskOf hd) ⟨rfl, rfl, fun _ => .refl _⟩ rfl (.inr ⟨rfl, ?_, rfl, rfl⟩)
    exact Option.not_isSome_iff_eq_none.1 (Bool.not_eq_true _ ▸ pass (_, .bankBusy) (.tail _ (.head _)))

/-- A save begins with none in flight before it (R175). -/
theorem decideSave_decided : Decided l kindSave s (decideSave l body role s) := by
  unfold decideSave
  repeat' split
  any_goals exact .refused _
  next d hd _ cls _ =>
    have same : SameLinks s (s.invalidate cls) := .invalidate cls
    refine .refuseFirst _ fun pass => .hold (linkOf_of_deskOf hd) ⟨same.power, same.pending, same.port⟩ same.lead
      (.inl ⟨rfl, ?_, rfl, same.rebuild⟩)
    exact Option.not_isSome_iff_eq_none.1 (Bool.not_eq_true _ ▸ pass (_, .storeBusy) (.tail _ (.head _)))

end

/-- Every request is decided as its port and the other links need it. -/
theorem decisionOf_decided {i : Instr} {l : Link} {r : Request} (h : i.request? = some (l, r)) (role : Role) (s : State) :
    Decided l r.kind s (decisionOf i role s) := by
  cases i <;> cases h
  case status => exact decideStatus_decided _ _ role _
  case read => exact decideRead_decided _ _ role _
  case takeLead => exact decideTakeLead_decided _ _ _ role _
  case yieldLead => exact decideYieldLead_decided _ _ _ _ _
  case linkSetup => exact decideLinkSetup_decided _ _ _ _ _
  case cueOpen => exact decideCueOpen_decided _ _ _ _ _
  case cueClose => exact decideCueClose_decided _ _ _ role _
  case cueDrop => exact decideCueDrop_decided _ _ _ _ _
  case go => exact decideGo_decided _ _ _ _ _
  case back => exact decideBack_decided _ _ _ _ _
  case manual => exact decideManual_decided _ _ _ _ _
  case release => exact decideRelease_decided _ _ _ _ _
  case hold | resume => exact decideHolds_decided _ _ _ role s _
  case bankSelect => exact decideBankSelect_decided _ _ _ _
  case profileSet => exact decideProfileSet_decided _ _ _ _ _
  case lineSetup => exact decideLineSetup_decided _ _ _ _ _
  case save => exact decideSave_decided _ _ _ _
  case unknownKind => exact .refused _
  -- No branch of the other requests touches a port, the lead, the save or the rebuild.
  all_goals
    simp only [decisionOf, decideCueMoves, decideRate, decidePbLevel, decidePlaybackSetup, decidePatchSet, State.patch,
      decideBankClear, decideBankCopy, decideStartBank, decideLawLoad, decidePark, decideFlash, setPark, decideNudge,
      decideUnpark, decideLookSet, decideRaise, decideGrand, decideRackSetup, refuseFirst]
    repeat' split
    all_goals exact .answer (.of_eq rfl rfl rfl rfl rfl fun _ => rfl)

end Sys2Proof.Machine
end

section
namespace Sys2Proof.Machine

variable {s t : State} {l : Link} {r : Request}

/-! ### The request at the head of its queue (R157, R158) -/

/-- With a request pending, an answer is the reply to it. -/
theorem State.answerHead_of_queue {rest : List Request} (hq : (s.port l).queue = r :: rest) (code : ResultCode)
    (body : List Byte) (carried : Notices) : s.answerHead l code body carried =
      s.setPort l { s.port l with head := .replying ⟨replyKind r.kind, r.tag, code, body⟩ carried } := by
  unfold State.answerHead State.modPort
  dsimp only
  rw [hq]

theorem AtHead.answerHead (h : AtHead s l r) (code : ResultCode) (body : List Byte) (carried : Notices) :
    s.answerHead l code body carried =
      s.setPort l { s.port l with head := .replying ⟨replyKind r.kind, r.tag, code, body⟩ carried } := by
  obtain ⟨-, rest, hq⟩ := Port.next?_eq_some h.2
  exact State.answerHead_of_queue hq code body carried

/-- A request that arrives at an empty queue is the next to be taken (R156). -/
theorem atHead_receive (running : s.power = .running) (empty : (s.port l).queue = []) (untaken : (s.port l).head = .untaken) :
    AtHead (s.receive l r) l r := by
  refine ⟨running, ?_⟩
  unfold State.receive
  rw [State.port_arrive, State.port_modPort_self]
  simp [Port.next?, untaken, empty, Config.queueDepth]

/-- Settles O2: the row of a request that is not pending, by what is (`requestRow_empty`, `requestRow_waiting`). -/
theorem requestRowArrivesThenIsTaken : Obligations.RequestRowArrivesThenIsTaken := by
  intro s i l r hw hr running
  refine ⟨fun empty untaken => ?_, fun pending other => ?_⟩
  · have taken : AtHead (s.receive l r) l r := atHead_receive running empty untaken
    refine ⟨taken, ?_⟩
    rw [exec_wellFormed hw hr, exec_wellFormed hw hr, requestRow_empty _ running empty, requestRow_atHead _ taken]
  · rw [exec_wellFormed hw hr, requestRow_waiting _ running other pending]

/-- Once a head is written, everything else of the standing ports is as it was. -/
theorem SamePorts.port_setHead (same : SamePorts s t) (l : Link) (h : Head) (m : Link) :
    let u := t.setPort l { t.port l with head := h }
    (u.port m).queue = (s.port m).queue ∧ (u.port m).receiver = (s.port m).receiver ∧
      (m ≠ l → (u.port m).head = (s.port m).head) := by
  dsimp only
  rw [State.port_setPort]
  split
  · next own => subst own; exact ⟨(same.port l).queue, (same.port l).receiver, fun other => absurd rfl other⟩
  · exact ⟨(same.port m).queue, (same.port m).receiver, fun _ => (same.port m).head⟩

/-- Settles O10: the decision leaves the ports standing (`decisionOf_decided`), and settling it writes the own head alone. -/
theorem takenRequestAnswersOnItsOwnLink : Obligations.TakenRequestAnswersOnItsOwnLink := by
  intro s i l r hw hr hh
  have taken : exec i s = .next (settle l (decisionOf i (s.role l) s)) := by
    rw [exec_wellFormed hw hr, requestRow_atHead _ hh]
  have decided := decisionOf_decided hr (s.role l) s
  rw [taken]
  generalize decisionOf i (s.role l) s = verdict at decided
  obtain ⟨running, next⟩ := hh
  obtain ⟨-, rest, queue⟩ := Port.next?_eq_some next
  rcases decided with @⟨code, body, carried, t, same, -, -, -, page, notices⟩ | @⟨_, t, -, same, -, begun⟩
  · have settled : settle l (.reply code body carried t) = t.setPort l
        { t.port l with head := .replying ⟨replyKind r.kind, r.tag, code, body⟩ carried } :=
      State.answerHead_of_queue ((same.port l).queue.trans queue) code body carried
    rw [settled]
    refine ⟨_, rfl, same.power.trans running, same.pending, same.port_setHead l _, .inr ⟨code, body, carried, ?_, page, notices⟩⟩
    rw [State.port_setPort_self]
  · refine ⟨_, rfl, same.power.trans running, same.pending, same.port_setHead l .timed, .inl ⟨?_, ?_⟩⟩
    · rw [settle, State.port_modPort_self]
    · exact begun.imp And.left And.left

/-- Settles O8: an unlisted kind's decision is the answer itself, whose kind is the one it returns unchanged or with 0x80 added. -/
theorem unknownKindChangesNothing : Obligations.UnknownKindChangesNothing := by
  intro s l kind tag body unlisted hh
  have row : exec (.unknownKind l kind tag body) s = .next (s.answered l .unknownKind) :=
    congrArg Host.Outcome.next ((if_neg (Bool.not_eq_true _ ▸ unlisted)).trans (requestRow_atHead decideUnknownKind hh))
  have code : replyKind kind = if 0x80 ≤ kind.toNat then kind else kind + 0x80 := by
    unfold replyKind
    by_cases below : kind.toNat < 128
    · rw [if_pos below, if_neg (Nat.not_le.2 below)]
    · rw [if_neg below, if_pos (Nat.not_lt.1 below)]
  rw [row, State.answered, hh.answerHead, code]

end Sys2Proof.Machine
end


section
namespace Sys2Proof.Machine

variable {s t u : State}

/-! ### The receiver over a row of bytes (R155) -/

/-- A start byte met while hunting begins a telegram, decided by the bytes behind it. -/
theorem hunt_start (bytes : List Byte) : hunt (Config.startByte :: bytes) = match readTelegram bytes with
    | .partly => (.collecting bytes, [])
    | .bad => hunt bytes
    | .valid r rest => ((scan bytes.length rest).1, r :: (scan bytes.length rest).2) := by
  show scan (bytes.length + 1) _ = _
  rw [scan, if_pos rfl]
  cases readTelegram bytes <;> rfl

/-- A row of bytes without a start byte leaves the receiver hunting (R155). -/
theorem hunt_of_no_start {bytes : List Byte} (h : Config.startByte ∉ bytes) : hunt bytes = (.hunting, []) := by
  unfold hunt
  induction bytes with
  | nil => rfl
  | cons b rest ih =>
    obtain ⟨other, none_left⟩ := not_or.1 (mt List.mem_cons.2 h)
    rw [List.length_cons, scan, if_neg (Ne.symm other)]
    exact ih none_left

/-- The bytes a receiver has collected after a scan are an unfinished telegram. -/
theorem scan_unfinished (fuel : Nat) (bytes : List Byte) :
    ∀ taken, (scan fuel bytes).1 = .collecting taken → readTelegram taken = .partly := by
  induction fuel generalizing bytes with
  | zero => cases bytes <;> exact nofun
  | succ fuel ih =>
    cases bytes with
    | nil => exact nofun
    | cons b rest =>
      rw [scan]
      split
      · split
        · next partly =>
          rintro taken ⟨⟩
          exact partly
        · exact ih rest
        · exact ih _
      · exact ih rest

theorem Receiver.take_unfinished (x : Receiver) (b : Byte) :
    ∀ taken, (x.take b).1 = .collecting taken → readTelegram taken = .partly := by
  cases x <;> exact scan_unfinished _ _

theorem Receiver.discard_unfinished (x : Receiver) :
    ∀ taken, x.discard.1 = .collecting taken → readTelegram taken = .partly := by
  cases x
  · exact nofun
  · exact scan_unfinished _ _

end Sys2Proof.Machine
end

section
namespace Sys2Proof.Machine

variable {s t : State}

/-! ### Legal ports (R155, R157, R159, R160) -/

theorem Port.Legal.stands {p q : Port} (legal : p.Legal) (h : p.Stands q) : q.Legal where
  unfinished bytes hb := legal.unfinished bytes (h.receiver ▸ hb)
  queue_le := h.queue ▸ legal.queue_le
  head_stands := by
    rw [h.head, h.queue]
    exact legal.head_stands
  silent_holds := by
    rw [h.state, h.head, h.queue]
    exact legal.silent_holds
  monitor_live := h.monitor legal.monitor_live

/-- A new receiver that holds an unfinished telegram or hunts. -/
theorem Port.Legal.setReceiver {p : Port} (legal : p.Legal) {x : Receiver}
    (hx : ∀ bytes, x = .collecting bytes → readTelegram bytes = .partly) : Port.Legal { p with receiver := x } :=
  { legal with unfinished := hx }

/-- A head that has been taken stands on its request. -/
theorem Port.Legal.setHead {p : Port} (legal : p.Legal) {h : Head} (taken : h ≠ .untaken) (pending : p.queue ≠ []) :
    Port.Legal { p with head := h } :=
  { legal with
    head_stands := fun _ => pending
    silent_holds := fun silent => ⟨(legal.silent_holds silent).1, fun e => absurd e taken⟩ }

theorem Port.Legal.replySent {p : Port} (legal : p.Legal) : p.replySent.Legal := by
  unfold Port.replySent
  split
  · refine { legal with queue_le := ?_, head_stands := fun h => absurd rfl h, silent_holds := fun silent => ?_ }
    · exact p.queue.tail_sublist.length_le.trans legal.queue_le
    · have short := (legal.silent_holds silent).1
      have empty : p.queue.tail = [] := List.eq_nil_of_length_eq_zero (by rw [List.length_tail]; omega)
      exact ⟨by simp [empty], fun _ => empty⟩
  · exact legal

theorem Port.Legal.fallSilent {p : Port} (legal : p.Legal) : p.fallSilent.Legal := by
  unfold Port.fallSilent
  refine { legal with queue_le := ?_, head_stands := fun taken => ?_, silent_holds := fun _ => ?_, monitor_live := by simp }
  · split
    · exact Nat.zero_le _
    · exact (List.length_take_le' _ _).trans legal.queue_le
  · have pending := legal.head_stands taken
    rw [if_neg taken]
    simpa using pending
  · split
    · exact ⟨Nat.zero_le _, fun _ => rfl⟩
    · next taken => exact ⟨List.length_take_le _ _, fun e => absurd e taken⟩

theorem Port.Legal.cold (x : Notices) : (Port.cold x).Legal where
  unfinished := nofun
  queue_le := Nat.zero_le _
  head_stands h := absurd rfl h
  silent_holds _ := ⟨Nat.zero_le _, fun _ => rfl⟩
  monitor_live := by simp [Port.cold]

/-- A port on which a telegram has arrived is LIVE, its queue at most full (R156). -/
theorem Port.Legal.arrived {p : Port} (legal : p.Legal) (ms : Nat) (r : Request) (x : Notices) : Port.Legal
    { p with state := .live, monitor := some ms, notices := x
             queue := if p.queue.length < Config.queueDepth then p.queue ++ [r] else p.queue } where
  unfinished := legal.unfinished
  queue_le := by
    dsimp only
    split
    · next room => rw [List.length_append]; exact room
    · exact legal.queue_le
  head_stands taken := by
    have pending := legal.head_stands taken
    dsimp only
    split
    · exact List.append_ne_nil_of_right_ne_nil _ (List.cons_ne_nil r [])
    · exact pending
  silent_holds := nofun
  monitor_live := iff_of_true rfl rfl

end Sys2Proof.Machine
end

section
namespace Sys2Proof.Machine

@[simp] theorem deskOf_linkOf (d : Desk) : deskOf (linkOf d) = some d := by cases d <;> rfl

theorem linkOf_injective {d e : Desk} (h : linkOf d = linkOf e) : d = e :=
  Option.some.inj ((deskOf_linkOf d).symm.trans ((congrArg deskOf h).trans (deskOf_linkOf e)))

/-- What lead control does at the silence of desk `d` (R165). -/
theorem State.leadSilent_cases (s : State) (d : Desk) :
    (s.lead ≠ some d ∧ s.leadSilent d = s) ∨
    (s.lead = some d ∧ s.rig.linkSetup.failover = true ∧ (s.port (linkOf (otherDesk d))).state = .live ∧
      s.leadSilent d = (s.setLead (some (otherDesk d))).notifyAll .failover) ∨
    (s.lead = some d ∧ ¬ (s.rig.linkSetup.failover = true ∧ (s.port (linkOf (otherDesk d))).state = .live) ∧
      s.leadSilent d = s.setLead none) := by
  unfold State.leadSilent
  split
  · exact .inl ⟨‹_›, rfl⟩
  next leads =>
  rw [not_not] at leads
  split
  · next failover =>
    rw [Bool.and_eq_true, decide_eq_true_iff] at failover
    exact .inr (.inl ⟨leads, failover.1, failover.2, rfl⟩)
  · next none =>
    rw [Bool.and_eq_true, decide_eq_true_iff] at none
    exact .inr (.inr ⟨leads, none, rfl⟩)

/-- Desk `d` awaits the end of a save or of a rebuild. -/
def State.Awaits (s : State) (d : Desk) : Prop :=
  s.saving.map (·.link) = some d ∨ s.rebuild.bind (·.replyTo) = some d

namespace State.LinksLegal

variable {s t : State}

/-! ### What keeps the links legal -/

/-- Ports changed one by one, their links' states where the lead needs them, and no timed operation begun or ended. -/
theorem change (legal : s.LinksLegal) (ports : ∀ l, (t.port l).Legal)
    (lead : ∀ d, t.lead = some d → (t.port (linkOf d)).state = .live)
    (heads : ∀ l, (t.port l).head = .timed ↔ (s.port l).head = .timed) (saving : t.saving = s.saving)
    (rebuild : t.rebuild = s.rebuild) : t.LinksLegal where
  ports := ports
  lead_live := lead
  timed d := by
    rw [heads, saving, rebuild]
    exact legal.timed d
  not_both d := by
    rw [saving, rebuild]
    exact legal.not_both d
  remote_untimed := mt (heads .c).1 legal.remote_untimed

/-- A change that leaves the ports standing, and the lead unless it passes to a LIVE link. -/
theorem stands (legal : s.LinksLegal) (h : SamePorts s t)
    (lead : ∀ d, t.lead = some d → s.lead = some d ∨ (s.port (linkOf d)).state = .live) (saving : t.saving = s.saving)
    (rebuild : t.rebuild = s.rebuild) : t.LinksLegal := by
  refine legal.change (fun l => (legal.ports l).stands (h.port l)) (fun d hd => ?_) (fun l => by rw [(h.port l).head]) saving rebuild
  rw [(h.port _).state]
  exact (lead d hd).elim (legal.lead_live d) id

theorem same (legal : s.LinksLegal) (h : SameLinks s t) : t.LinksLegal :=
  legal.stands h.toSamePorts (fun _ hd => .inl (h.lead ▸ hd)) h.saving h.rebuild

/-- One port changed, its link as LIVE as before and no timed head written or cleared. -/
theorem modPort (legal : s.LinksLegal) (l : Link) (f : Port → Port) (port : (s.port l).Legal → (f (s.port l)).Legal)
    (live : (s.port l).state = .live → (f (s.port l)).state = .live)
    (head : (f (s.port l)).head = .timed ↔ (s.port l).head = .timed) : (s.modPort l f).LinksLegal := by
  refine legal.change (fun m => ?_) (fun d hd => ?_) (fun m => ?_) rfl rfl <;> rw [State.port_modPort] <;> split
  · next own => subst own; exact port (legal.ports _)
  · exact legal.ports m
  · next own => subst own; exact live (legal.lead_live d hd)
  · exact legal.lead_live d hd
  · next own => subst own; exact head
  · exact .rfl

theorem setReceiver (legal : s.LinksLegal) (l : Link) {x : Receiver}
    (hx : ∀ bytes, x = .collecting bytes → readTelegram bytes = .partly) :
    (s.modPort l fun p => { p with receiver := x }).LinksLegal :=
  legal.modPort l _ (fun h => h.setReceiver hx) id .rfl

theorem arrive (legal : s.LinksLegal) (l : Link) (r : Request) : (s.arrive l r).LinksLegal := by
  refine legal.change (fun m => ?_) (fun d hd => ?_) (fun m => ?_) rfl rfl <;> rw [State.port_arrive] <;> split
  · exact (legal.ports m).arrived _ r _
  · exact legal.ports m
  · rfl
  · exact legal.lead_live d hd
  · exact .rfl
  · exact .rfl

theorem receive (legal : s.LinksLegal) (l : Link) (r : Request) : (s.receive l r).LinksLegal :=
  (legal.setReceiver l (x := .hunting) nofun).arrive l r

theorem handOn (legal : s.LinksLegal) (l : Link) {x : Receiver × List Request}
    (hx : ∀ bytes, x.1 = .collecting bytes → readTelegram bytes = .partly) : (s.handOn l x).LinksLegal := by
  unfold State.handOn
  have received := legal.setReceiver l hx
  generalize s.modPort l _ = v at received
  induction x.2 generalizing v with
  | nil => exact received
  | cons r rest ih => exact ih _ (received.arrive l r)

theorem replySent (legal : s.LinksLegal) (l : Link) : (s.modPort l Port.replySent).LinksLegal := by
  refine legal.modPort l _ (fun h => h.replySent) (fun live => ?_) ?_ <;> unfold Port.replySent <;> split
  · exact live
  · exact live
  · next replying => simp [replying]
  · exact .rfl

/-- A link with a request to be taken is LIVE (R160). -/
theorem live_of_atHead (legal : s.LinksLegal) {l : Link} {r : Request} (h : AtHead s l r) : (s.port l).state = .live := by
  obtain ⟨untaken, rest, queue⟩ := Port.next?_eq_some h.2
  rcases state : (s.port l).state with _ | _
  · rw [((legal.ports l).silent_holds state).2 untaken] at queue
    cases queue
  · rfl

theorem answerHead (legal : s.LinksLegal) {l : Link} (untimed : (s.port l).head ≠ .timed) (code : ResultCode)
    (body : List Byte) (carried : Notices) : (s.answerHead l code body carried).LinksLegal := by
  refine legal.modPort l _ (fun h => ?_) (fun live => ?_) ?_ <;> split
  · exact h
  · next queue => exact h.setHead nofun (by simp [queue])
  · exact live
  · exact live
  · exact .rfl
  · exact iff_of_false nofun untimed

/-- One desk's taken head written, timed exactly if that desk then awaits an operation, where no other desk's waiting begins
or ends. -/
theorem setTaken (legal : s.LinksLegal) {d : Desk} {h : Head} (port : ∀ l, (s.port l).Stands (t.port l)) (lead : t.lead = s.lead)
    (pending : (s.port (linkOf d)).queue ≠ []) (taken : h ≠ .untaken) (own : h = .timed ↔ t.Awaits d)
    (others : ∀ e, d ≠ e → (t.Awaits e ↔ s.Awaits e))
    (once : ∀ e, ¬ (t.saving.map (·.link) = some e ∧ t.rebuild.bind (·.replyTo) = some e)) :
    (t.setPort (linkOf d) { t.port (linkOf d) with head := h }).LinksLegal where
  ports l := by
    rw [State.port_setPort]
    split
    · exact ((legal.ports _).stands (port _)).setHead taken (by rw [(port _).queue]; exact pending)
    · exact (legal.ports l).stands (port l)
  lead_live e he := by
    have live := (port (linkOf e)).state.trans (legal.lead_live e (lead ▸ he))
    rw [State.port_setPort]
    split
    · next same => rw [same]; exact live
    · exact live
  timed e := by
    rw [State.port_setPort]
    by_cases same : d = e
    · subst same
      rw [if_pos rfl]
      exact own
    · rw [if_neg fun h => same (linkOf_injective h), (port _).head]
      exact (legal.timed e).trans (others e same).symm
  not_both := once
  remote_untimed := by
    rw [State.port_setPort, if_neg (by cases d <;> decide), (port _).head]
    exact legal.remote_untimed

/-- The desk that begins to await a timed operation holds its head timed (R157, R175, R88). -/
theorem hold (legal : s.LinksLegal) {d : Desk} {r : Request} (h : AtHead s (linkOf d) r) (same : SamePorts s t)
    (lead : t.lead = s.lead)
    (begun : (s.saving = none ∧ t.saving.map (·.link) = some d ∧ t.rebuild = s.rebuild) ∨
      (s.rebuild = none ∧ t.rebuild.bind (·.replyTo) = some d ∧ t.saving = s.saving)) :
    (t.modPort (linkOf d) fun p => { p with head := .timed }).LinksLegal := by
  obtain ⟨untaken, rest, queue⟩ := Port.next?_eq_some h.2
  have idle : ¬ s.Awaits d := by
    rw [State.Awaits, ← legal.timed, untaken]
    exact nofun
  refine legal.setTaken same.port lead (by rw [queue]; exact nofun) nofun (iff_of_true rfl ?_) (fun e other => ?_) ?_
  · exact begun.imp (·.2.1) (·.2.1)
  · rcases begun with ⟨none, some, eq⟩ | ⟨none, some, eq⟩ <;> simp [State.Awaits, none, some, eq, other]
  · rintro e ⟨saves, rebuilds⟩
    rcases begun with ⟨-, some, eq⟩ | ⟨-, some, eq⟩
    · obtain rfl := Option.some.inj (some.symm.trans saves)
      exact idle (.inr (eq ▸ rebuilds))
    · obtain rfl := Option.some.inj (some.symm.trans rebuilds)
      exact idle (.inl (eq ▸ saves))

/-- A request row keeps the links legal, whatever its request and its decision. -/
theorem request (legal : s.LinksLegal) {i : Instr} {l : Link} {r : Request} (h : i.request? = some (l, r)) :
    (requestRow l r (decisionOf i) s).LinksLegal := by
  have taken {v : State} (legal : v.LinksLegal) (next : AtHead v l r) :
      (settle l (decisionOf i (v.role l) v)).LinksLegal := by
    have decided := decisionOf_decided h (v.role l) v
    generalize decisionOf i (v.role l) v = verdict at decided
    rcases decided with @⟨code, body, carried, t, same, lead, saving, rebuild, -, -⟩ | @⟨d, t, sender, same, lead, begun⟩
    · have standing : t.LinksLegal :=
        legal.stands same (fun d hd => (lead d hd).imp_right fun own => by rw [own]; exact legal.live_of_atHead next) saving rebuild
      refine standing.answerHead ?_ code body carried
      rw [(same.port l).head, (Port.next?_eq_some next.2).1]
      exact nofun
    · subst sender
      exact legal.hold next same lead (begun.imp And.right And.right)
  obtain ⟨-, e⟩ | ⟨next, e⟩ | ⟨running, empty, e⟩ | ⟨-, -, e⟩ := requestRow_cases s l r (decisionOf i) <;> rw [e]
  · exact legal
  · exact taken legal next
  · have untaken : (s.port l).head = .untaken := not_not.1 fun h => (legal.ports l).head_stands h empty
    exact taken (legal.receive l r) (atHead_receive running empty untaken)
  · exact legal.receive l r

/-! ### The ends of the timed operations (R88, R176, R177) -/

/-- A timed operation over, the desk that awaited it is answered (R88, R176, R177). -/
theorem answerTimed (legal : s.LinksLegal) {d : Desk} (code : ResultCode) (ports : t.ports = s.ports) (lead : t.lead = s.lead)
    (ended : (s.saving.map (·.link) = some d ∧ t.saving = none ∧ t.rebuild = s.rebuild) ∨
      (s.rebuild.bind (·.replyTo) = some d ∧ t.rebuild = none ∧ t.saving = s.saving)) :
    (t.answerTimed d code).LinksLegal := by
  have port (l : Link) : t.port l = s.port l := congrArg (Ports.get · l) ports
  have timed := (legal.timed d).2 (ended.imp And.left And.left)
  have pending : (s.port (linkOf d)).queue ≠ [] := (legal.ports _).head_stands (by rw [timed]; exact nofun)
  obtain ⟨r, rest, queue⟩ := List.exists_cons_of_ne_nil pending
  have once := legal.not_both d
  rw [State.answerTimed, port, timed]
  dsimp only
  rw [State.answerHead_of_queue (by rw [port]; exact queue)]
  refine legal.setTaken (fun l => by rw [port]; exact .refl _) lead pending nofun (iff_of_false nofun ?_) (fun e other => ?_)
    fun e => ?_
  · rcases ended with ⟨some, none, eq⟩ | ⟨some, none, eq⟩
    · simpa [State.Awaits, none, eq, some] using once
    · simpa [State.Awaits, none, eq, some] using once
  · rcases ended with ⟨some, none, eq⟩ | ⟨some, none, eq⟩ <;> simp [State.Awaits, none, eq, some, other]
  · rcases ended with ⟨-, none, -⟩ | ⟨-, none, -⟩ <;> simp [none]

/-- A save over, its item stored or INVALID, is answered to its sender (R176, R177). -/
theorem saveEnded (legal : s.LinksLegal) {x : Saving} (h : s.saving = some x) {v : State} (kept : SameLinks s v)
    (ports : v.ports = s.ports) (code : ResultCode) : (State.answerTimed { v with saving := none } x.link code).LinksLegal :=
  legal.answerTimed code ports kept.lead (.inl ⟨by rw [h]; rfl, rfl, kept.rebuild⟩)

theorem saveEnd (legal : s.LinksLegal) : s.saveEnd.LinksLegal := by
  unfold State.saveEnd
  split
  · exact legal
  · next x h =>
    have ports : (s.storeWorking x.cls).ports = s.ports := by cases x.cls <;> rfl
    exact legal.saveEnded h (.storeWorking x.cls) ports .ok

theorem saveFailure (legal : s.LinksLegal) : s.saveFailure.LinksLegal := by
  unfold State.saveFailure
  split
  · exact legal
  · next x h =>
    have ports : (s.invalidate x.cls).ports = s.ports := by rw [s.invalidate_others]
    exact legal.saveEnded h (.invalidate x.cls) ports .storeFault

/-- The end of a rebuild that no desk awaits (R88). -/
theorem rebuilt (legal : s.LinksLegal) (unawaited : s.rebuild.bind (·.replyTo) = none) (n : Fin 4) :
    (s.rebuilt n).LinksLegal := by
  refine { legal with timed := fun d => (legal.timed d).trans ?_, not_both := fun d both => nomatch both.2 }
  rw [unawaited]
  rfl

theorem endRebuild (legal : s.LinksLegal) : s.endRebuild.LinksLegal := by
  rcases h : s.rebuild with _ | ⟨n, replyTo, cold⟩
  · rw [State.endRebuild_idle h]
    exact legal
  have answered : (match replyTo with
      | some d => (s.rebuilt n).answerTimed d .ok
      | none => s.rebuilt n).LinksLegal := by
    rcases replyTo with _ | d
    · exact legal.rebuilt (by rw [h]; rfl) n
    · exact legal.answerTimed .ok rfl rfl (.inr ⟨by rw [h]; rfl, rfl, rfl⟩)
  rw [State.endRebuild_eq h]
  cases cold
  · exact answered
  · exact answered.same (.firstFrames _)

/-! ### Silence (R160, R165) -/

/-- A silent desk does not lead: the lead is the other desk's, on a LIVE link, or NONE (R165). -/
theorem lead_leadSilent (s : State) (d e : Desk) (h : (s.leadSilent d).lead = some e) :
    e ≠ d ∧ (s.lead = some e ∨ (s.port (linkOf e)).state = .live) := by
  obtain ⟨other, same⟩ | ⟨-, -, live, same⟩ | ⟨-, -, same⟩ := s.leadSilent_cases d <;> rw [same] at h
  · exact ⟨fun own => other (own ▸ h), .inl h⟩
  · obtain rfl : otherDesk d = e := Option.some.inj h
    exact ⟨by cases d <;> decide, .inr live⟩
  · cases h

theorem leadSilent_samePorts (s : State) (d : Desk) :
    SamePorts s (s.leadSilent d) ∧ (s.leadSilent d).saving = s.saving ∧ (s.leadSilent d).rebuild = s.rebuild := by
  have set (x : Option Desk) : SamePorts s (s.setLead x) := ⟨rfl, rfl, fun _ => .refl _⟩
  obtain ⟨-, same⟩ | ⟨-, -, -, same⟩ | ⟨-, -, same⟩ := s.leadSilent_cases d <;> rw [same]
  · exact ⟨(SameLinks.refl s).toSamePorts, rfl, rfl⟩
  · exact ⟨(set _).trans (SameLinks.notifyAll _).toSamePorts, rfl, rfl⟩
  · exact ⟨set _, rfl, rfl⟩

/-- A link falls silent: its port first, then the lead, which it can no longer hold (R160, R165). -/
theorem silence (legal : s.LinksLegal) (l : Link) : (s.silence l).LinksLegal := by
  have port (m : Link) : ((s.modPort l Port.fallSilent).port m).Legal ∧
      (((s.modPort l Port.fallSilent).port m).head = .timed ↔ (s.port m).head = .timed) := by
    rw [State.port_modPort]
    split
    · exact ⟨(legal.ports m).fallSilent, .rfl⟩
    · exact ⟨legal.ports m, .rfl⟩
  have other {m : Link} (h : l ≠ m) : (s.modPort l Port.fallSilent).port m = s.port m := by
    rw [State.port_modPort, if_neg h]
  unfold State.silence
  split
  · exact legal
  dsimp only
  split
  · next d hd =>
    obtain rfl := linkOf_of_deskOf hd
    have lead := lead_leadSilent (s.modPort (linkOf d) Port.fallSilent) d
    obtain ⟨stands, saving, rebuild⟩ := leadSilent_samePorts (s.modPort (linkOf d) Port.fallSilent) d
    refine State.LinksLegal.same (s := (s.modPort (linkOf d) Port.fallSilent).leadSilent d) ?_ (.of_fills (State.endFill_only _ d))
    refine legal.change (fun m => (port m).1.stands (stands.port m)) (fun e he => ?_)
      (fun m => by rw [(stands.port m).head]; exact (port m).2) saving rebuild
    obtain ⟨apart, leads | live⟩ := lead e he <;> rw [(stands.port _).state]
    · rw [other fun h => apart (linkOf_injective h).symm]
      exact legal.lead_live e leads
    · exact live
  · next hd =>
    have apart (e : Desk) : l ≠ linkOf e := by
      rintro rfl
      simp at hd
    refine legal.change (fun m => (port m).1) (fun e he => ?_) (fun m => (port m).2) rfl rfl
    show ((s.modPort l Port.fallSilent).port (linkOf e)).state = .live
    rw [other (apart e)]
    exact legal.lead_live e he

/-! ### Resets and restarts (R178, R179, R181) -/

/-- Ports as a cold start leaves them, with nothing led and nothing awaited (R5, R155, R159). -/
theorem of_cold (port : ∀ l, ∃ x, t.port l = Port.cold x) (lead : t.lead = none) (saving : t.saving = none)
    (rebuild : t.rebuild.bind (·.replyTo) = none) : t.LinksLegal where
  ports l := by
    obtain ⟨x, e⟩ := port l
    rw [e]
    exact .cold x
  lead_live d h := by rw [lead] at h; cases h
  timed d := by
    obtain ⟨x, e⟩ := port (linkOf d)
    rw [e, saving, rebuild]
    simp [Port.cold]
  not_both d := by simp [saving]
  remote_untimed := by
    obtain ⟨x, e⟩ := port .c
    rw [e]
    exact nofun

theorem coldStart (s : State) : s.coldStart.LinksLegal :=
  of_cold (fun l => ⟨s.coldNotices, Port.cold_get _ l⟩) rfl rfl rfl

theorem assertReset (s : State) : s.assertReset.LinksLegal :=
  of_cold (fun l => ⟨{}, Port.cold_get _ l⟩) rfl rfl rfl

theorem dipRestart (legal : s.LinksLegal) : s.dipRestart.LinksLegal := by
  have lead : s.dipRestart.lead = s.lead := by rw [s.dipRestart_others]
  have saving : s.dipRestart.saving = none := by rw [s.dipRestart_others]
  have rebuild : s.dipRestart.rebuild.bind (·.replyTo) = none := by
    rw [s.dipRestart_others]
    cases s.rebuild <;> rfl
  refine ⟨fun l => ?_, fun d h => ?_, fun d => ?_, fun d => ?_, ?_⟩
  · rw [State.port_dipRestart]
    refine ⟨nofun, Nat.zero_le _, fun h => absurd rfl h, fun _ => ⟨Nat.zero_le _, fun _ => rfl⟩, ?_⟩
    dsimp only
    split
    · next live => exact iff_of_true rfl live
    · exact (legal.ports l).monitor_live
  · rw [State.port_dipRestart]
    exact legal.lead_live d (lead ▸ h)
  · rw [State.port_dipRestart, saving, rebuild]
    exact iff_of_false nofun (by simp)
  · rw [saving]
    exact fun both => nomatch both.1
  · rw [State.port_dipRestart]
    exact nofun

/-! ### One step -/

/-- Whatever the event, the links stay legal. -/
theorem event {c : Instr} (legal : s.LinksLegal) (event : c.request? = none) (h : Machine.exec c s = .next t) : t.LinksLegal := by
  cases c <;> obtain rfl := Host.Outcome.next.inj h
  case validTelegram => exact whileRunning_keeps legal (legal.receive _ _)
  case badTelegram => exact whileRunning_keeps legal (legal.handOn _ (Receiver.discard_unfinished _))
  case linkByteReceived => exact whileRunning_keeps legal (legal.handOn _ (Receiver.take_unfinished _ _))
  case interByteGap => exact whileRunning_keeps legal (legal.setReceiver _ nofun)
  case replySent => exact whileRunning_keeps legal (legal.replySent _)
  case silenceMonitorExpiry => exact whileRunning_keeps legal (legal.silence _)
  case rebuildEnd => exact whileRunning_keeps legal legal.endRebuild
  case saveEnd => exact whileRunning_keeps legal legal.saveEnd
  case saveWriteFailure => exact whileRunning_keeps legal legal.saveFailure
  case fadeTick => exact whileRunning_keeps legal (legal.same (.of_beside s.tick_beside))
  case followDue => exact whileRunning_keeps legal (legal.same (.of_beside (State.followDue_beside _)))
  case debounceTimerExpiry => exact whileRunning_keeps legal (legal.same (.debounceExpiry _))
  -- These events touch no port, and neither the lead nor a timed operation.
  case echoTimerExpiry | flashTimerExpiry => exact whileRunning_keeps legal { legal with }
  case supplyDip => exact whileRunning_keeps legal { legal with }
  case frameStart =>
    refine whileRunning_keeps legal ?_
    unfold State.frameStart
    repeat' split
    all_goals exact { legal with }
  case lineInputChange =>
    unfold State.inputChange
    dsimp only
    repeat' split
    all_goals exact { legal with }
  case resetAssert =>
    unfold State.lowerReset
    split
    · exact assertReset s
    · exact assertReset s
    · exact { legal with }
  case coldStart =>
    unfold State.startCold
    split
    · exact coldStart s
    · exact coldStart s
    · exact coldStart s
    · exact { legal with }
  case dipRestart =>
    unfold State.recover
    split
    · exact legal
    · exact legal
    · exact legal.dipRestart
    · exact assertReset s
  all_goals cases event

/-- Whatever the command, the links stay legal. -/
theorem exec {c : Instr} (legal : s.LinksLegal) (h : Machine.exec c s = .next t) : t.LinksLegal := by
  rcases hr : c.request? with _ | ⟨l, r⟩
  · exact legal.event hr h
  by_cases unlisted : ∀ l k tag body, c = .unknownKind l k tag body → knownKind k = false
  · rw [exec_request hr unlisted] at h
    cases h
    exact legal.request hr
  · push Not at unlisted
    obtain ⟨l, k, tag, body, rfl, known⟩ := unlisted
    obtain rfl := (Host.Outcome.next.inj h).symm.trans (if_pos (by simpa using known))
    exact legal

end State.LinksLegal

/-- Settles O15: a request row by its decision (`State.LinksLegal.request`), and each event by what it does to the ports. -/
theorem everyStepKeepsTheLinksLegal : Obligations.EveryStepKeepsTheLinksLegal := by
  intro s t legal h
  unfold step at h
  split at h
  · cases h
    exact legal
  · next rest _ =>
    have taken : State.LinksLegal { s with pending := rest } := { legal with }
    exact taken.exec h

end Sys2Proof.Machine
end

section
namespace Sys2Proof.Machine

variable {s : State} {l : Link} {r : Request}

/-! ### A telegram received whole (R155, R156) -/

/-- A valid telegram's effect, all of it on its own port (R156). -/
theorem State.receive_eq (s : State) (l : Link) (r : Request) : s.receive l r = s.setPort l
    { s.port l with
      receiver := .hunting
      state := .live
      monitor := some (s.limit l * 100)
      queue := if (s.port l).queue.length < 4 then (s.port l).queue ++ [r] else (s.port l).queue
      notices := if (s.port l).queue.length < 4 then (s.port l).notices
        else { (s.port l).notices with overrun := true } } := by
  unfold State.receive State.arrive State.modPort
  rw [State.setPort_setPort, State.port_setPort_self]
  congr 1
  by_cases room : (s.port l).queue.length < 4
  · simp only [Config.queueDepth, room, if_true]
    rfl
  · simp only [Config.queueDepth, room, if_false]
    rfl

/-- Settles O3. -/
theorem validTelegramJoinsItsQueue : Obligations.ValidTelegramJoinsItsQueue := by
  intro s l kind tag body running
  exact congrArg Host.Outcome.next ((whileRunning_running running).trans (s.receive_eq l ⟨kind, tag, body⟩))

/-- What the receiver held before a whole telegram does not count. -/
theorem State.receive_setReceiver (s : State) (l : Link) (r : Request) (x : Receiver) :
    (s.setPort l { s.port l with receiver := x }).receive l r = s.receive l r := by
  rw [State.receive_eq, State.receive_eq, State.setPort_setPort, State.port_setPort_self]
  rfl

/-- Bytes that complete no telegram change the receiver alone. -/
theorem State.handOn_none (s : State) (l : Link) (x : Receiver) :
    s.handOn l (x, []) = s.setPort l { s.port l with receiver := x } := rfl

theorem State.handOn_one (s : State) (l : Link) (r : Request) : s.handOn l (.hunting, [r]) = s.receive l r := rfl

/-- A hunting receiver that goes on hunting. -/
theorem State.handOn_hunting (h : (s.port l).receiver = .hunting) : s.handOn l (.hunting, []) = s := by
  rw [State.handOn_none, ← h, State.setPort_port]

/-! ### The reading of a telegram byte by byte (R155) -/

/-- From its two length bytes on, a telegram is bad, unfinished, or decided by its check. -/
theorem readTelegram_cons (hi lo : Byte) (more : List Byte) : readTelegram (hi :: lo :: more) =
    if be16 hi lo < Config.minLength ∨ Config.maxLength < be16 hi lo then .bad
    else if more.length < be16 hi lo + 2 then .partly
    else if checkBytes (hi :: lo :: more.take (be16 hi lo)) = (more.drop (be16 hi lo)).take 2 then
      match more.take (be16 hi lo) with
      | kind :: tag :: body => .valid ⟨kind, tag, body⟩ (more.drop (be16 hi lo + 2))
      | _ => .bad
    else .bad := rfl

/-- A valid telegram has a length within range, its bytes are all there, and the rest stands behind its check. -/
theorem readTelegram_valid {bytes rest : List Byte} (h : readTelegram bytes = .valid r rest) :
    ∃ hi lo more, bytes = hi :: lo :: more ∧ ¬ (be16 hi lo < Config.minLength ∨ Config.maxLength < be16 hi lo) ∧
      be16 hi lo + 2 ≤ more.length ∧ rest = more.drop (be16 hi lo + 2) := by
  match bytes with
  | [] => cases h
  | [_] => cases h
  | hi :: lo :: more =>
    rw [readTelegram_cons] at h
    split at h
    · cases h
    next range =>
    split at h
    · cases h
    next whole =>
    split at h
    · split at h
      · cases h
        exact ⟨hi, lo, more, rfl, range, not_lt.1 whole, rfl⟩
      · cases h
    · cases h

/-- Before its last byte a valid telegram is unfinished. -/
theorem readTelegram_prefix {pre post : List Byte} (h : readTelegram (pre ++ post) = .valid r []) (ahead : post ≠ []) :
    readTelegram pre = .partly := by
  obtain ⟨hi, lo, more, bytes, range, whole, rest⟩ := readTelegram_valid h
  have length : more.length ≤ be16 hi lo + 2 := List.drop_eq_nil_iff.1 rest.symm
  match pre, bytes with
  | [], _ => rfl
  | [_], _ => rfl
  | _ :: _ :: taken, bytes =>
    cases bytes
    have some_ahead := List.length_pos_of_ne_nil ahead
    rw [List.append_eq, List.length_append] at length
    rw [readTelegram_cons, if_neg range, if_pos (by omega)]

/-- Nothing stands behind a telegram that its last byte has completed. -/
theorem readTelegram_completed {taken rest : List Byte} {b : Byte} (before : readTelegram taken = .partly)
    (h : readTelegram (taken ++ [b]) = .valid r rest) : rest = [] := by
  obtain ⟨hi, lo, more, bytes, range, whole, rfl⟩ := readTelegram_valid h
  match taken, bytes with
  | [], bytes => cases bytes
  | [_], bytes =>
    cases bytes
    cases whole
  | _ :: _ :: taken, bytes =>
    cases bytes
    rw [readTelegram_cons, if_neg range] at before
    have unfinished : taken.length < be16 hi lo + 2 := by
      by_contra done
      rw [if_neg done] at before
      split at before
      · split at before <;> cases before
      · cases before
    rw [List.append_eq, List.drop_eq_nil_iff, List.length_append, List.length_singleton]
    omega

/-! ### One byte at a receiver (R155) -/

theorem scan_nil (fuel : Nat) : scan fuel [] = (.hunting, []) := by cases fuel <;> rfl

theorem exec_byte_hunting (running : s.power = .running) (h : (s.port l).receiver = .hunting) (b : Byte) :
    exec (.linkByteReceived l b) s =
      .next (if b = 0xC3 then s.setPort l { s.port l with receiver := .collecting [] } else s) := by
  refine congrArg Host.Outcome.next ((whileRunning_running running).trans ?_)
  rw [h]
  show s.handOn l (hunt [b]) = _
  split
  · next start => subst start; exact congrArg (s.handOn l) (hunt_start [])
  · next other => rw [hunt_of_no_start (by simpa [Config.startByte] using Ne.symm other), State.handOn_hunting h]

theorem exec_byte_collecting (running : s.power = .running) {taken : List Byte}
    (h : (s.port l).receiver = .collecting taken) (unfinished : readTelegram taken = .partly) (b : Byte) :
    exec (.linkByteReceived l b) s = .next (match readTelegram (taken ++ [b]) with
      | .partly => s.setPort l { s.port l with receiver := .collecting (taken ++ [b]) }
      | .valid r _ => s.receive l r
      | .bad => s.handOn l (hunt (taken ++ [b]))) := by
  refine congrArg Host.Outcome.next ((whileRunning_running running).trans ?_)
  rw [h]
  show s.handOn l (hunt (Config.startByte :: (taken ++ [b]))) = _
  rw [hunt_start]
  rcases reading : readTelegram (taken ++ [b]) with _ | _ | ⟨r, rest⟩ <;> dsimp only
  · rfl
  · obtain rfl := readTelegram_completed unfinished reading
    rw [scan_nil]
    rfl

/-- Settles O5. -/
theorem receiverRowsFollowTheFraming : Obligations.ReceiverRowsFollowTheFraming := by
  intro s l running
  have bad : exec (.badTelegram l) s = .next (s.handOn l (s.port l).receiver.discard) :=
    congrArg Host.Outcome.next (whileRunning_running running)
  refine ⟨fun b h => exec_byte_hunting running h b, fun b taken h unfinished => exec_byte_collecting running h unfinished b,
    fun h => ?_, fun taken h => ?_, congrArg Host.Outcome.next (whileRunning_running running)⟩ <;> rw [bad, h]
  · exact congrArg Host.Outcome.next (State.handOn_hunting h)
  · show Host.Outcome.next (s.handOn l (hunt taken)) = _
    split
    · rfl
    · next none => rw [hunt_of_no_start none]; rfl

/-! ### A telegram byte by byte (R155, 12.1) -/

/-- Content of a length within range reads as the request it spells (12.1). -/
theorem readTelegram_envelope (size : r.body.length + 2 ≤ 1100) :
    ∃ b bytes, Request.telegram r = Config.startByte :: b :: bytes ∧ readTelegram (b :: bytes) = .valid r [] := by
  generalize content : r.kind :: r.tag :: r.body = bytes
  have length : bytes.length = r.body.length + 2 := by rw [← content]; rfl
  have count : be16 (byteOf (bytes.length / 256)) (byteOf bytes.length) = bytes.length := be16_bytes16 (by omega)
  generalize check : checkBytes (byteOf (bytes.length / 256) :: byteOf bytes.length :: bytes) = checks
  have two : checks.length = 2 := by rw [← check]; rfl
  refine ⟨byteOf (bytes.length / 256), byteOf bytes.length :: (bytes ++ checks), ?_, ?_⟩
  · rw [Request.telegram, content, ← check]
    rfl
  · rw [readTelegram_cons, count, if_neg (by simp only [Config.minLength, Config.maxLength]; omega), if_neg (by simp [two]),
      List.take_left, List.drop_left, check, if_pos (by simp [← two]), ← content]
    simp [two]

theorem core_run_next {M : Host.Core} {s t : M.State} (h : M.step s = .next t) (k : Nat) : M.run (k + 1) s = M.run k t := by
  rw [Host.Core.run, h]

/-- The part with other commands waiting. -/
def State.waiting (s : State) (q : List Instr) : State := { s with pending := q }

theorem step_front {c : Instr} {q : List Instr} (h : s.pending = c :: q) : step s = exec c (s.waiting q) := by
  unfold step
  rw [h]
  rfl

/-- The part with link `l`'s receiver collecting and other commands waiting. -/
def State.collecting (s : State) (l : Link) (taken : List Byte) (q : List Instr) : State :=
  (s.waiting q).setPort l { s.port l with receiver := .collecting taken }

theorem State.receiver_collecting (s : State) (l : Link) (taken : List Byte) (q : List Instr) :
    ((s.collecting l taken q).port l).receiver = .collecting taken := by
  rw [State.collecting, State.port_setPort_self]

theorem State.receive_collecting (s : State) (l : Link) (taken : List Byte) (q rest : List Instr) (r : Request) :
    ((s.collecting l taken q).waiting rest).receive l r = (s.waiting rest).receive l r :=
  (s.waiting rest).receive_setReceiver l r (.collecting taken)

/-- A byte of a valid telegram is held, or is the last and delivers the request (log 10). -/
theorem step_byte {b : Byte} {bytes taken : List Byte} {q : List Instr} (running : s.power = .running)
    (h : (s.port l).receiver = .collecting taken) (pending : s.pending = .linkByteReceived l b :: q)
    (valid : readTelegram (taken ++ b :: bytes) = .valid r []) :
    step s = .next (if bytes = [] then (s.waiting q).receive l r else s.collecting l (taken ++ [b]) q) := by
  have unfinished : readTelegram taken = .partly := readTelegram_prefix valid (List.cons_ne_nil _ _)
  rw [step_front pending, exec_byte_collecting (s := s.waiting q) running h unfinished]
  cases bytes with
  | nil => rw [valid]; rfl
  | cons c bytes =>
    rw [List.append_cons] at valid
    rw [readTelegram_prefix valid (List.cons_ne_nil _ _)]
    rfl

/-- The bytes of a telegram behind those collected deliver its request. -/
theorem run_telegram (bytes : List Byte) (b : Byte) (taken : List Byte) (s : State) (rest : List Instr)
    (running : s.power = .running) (h : (s.port l).receiver = .collecting taken)
    (pending : s.pending = (b :: bytes).map (Instr.linkByteReceived l) ++ rest)
    (valid : readTelegram (taken ++ b :: bytes) = .valid r []) :
    Host.Core.run Sys2Proof.core (bytes.length + 1) s = .next ((s.waiting rest).receive l r) := by
  refine (core_run_next (step_byte running h pending valid) _).trans ?_
  induction bytes generalizing b taken s with
  | nil => rfl
  | cons c bytes ih =>
    rw [List.append_cons] at valid
    let q := (c :: bytes).map (Instr.linkByteReceived l) ++ rest
    have receiver := s.receiver_collecting l (taken ++ [b]) q
    refine (core_run_next (step_byte (s := s.collecting l _ q) running receiver rfl valid) _).trans ?_
    exact (ih c _ (s.collecting l _ q) running receiver rfl valid).trans
      (congrArg Host.Outcome.next (s.receive_collecting l _ q rest r))

/-- Settles O4: the start byte makes the receiver collect, and the bytes behind it are `run_telegram`. -/
theorem telegramBytesDeliverTheRequest : Obligations.TelegramBytesDeliverTheRequest := by
  intro s l r rest running hunting size pending
  obtain ⟨b, bytes, telegram, valid⟩ := readTelegram_envelope size
  rw [telegram] at pending ⊢
  let q := (b :: bytes).map (Instr.linkByteReceived l) ++ rest
  have first : step s = .next (s.collecting l [] q) :=
    (step_front pending).trans (exec_byte_hunting (by exact running) (by exact hunting) Config.startByte)
  refine (core_run_next first _).trans ?_
  refine (run_telegram bytes b [] (s.collecting l [] q) rest running (s.receiver_collecting l [] q) rfl valid).trans ?_
  exact congrArg Host.Outcome.next (s.receive_collecting l [] q rest r)

end Sys2Proof.Machine
end

section
namespace Sys2Proof.Machine

/-! ### Notices added and carried (R167, R168) -/

theorem Notices.has_add_lineEdge (x : Notices) (k : Fin 4) (m : Notice) :
    (x.add (.lineEdge k)).has m = (decide (.lineEdge k = m) || x.has m) := by
  cases m
  case lineEdge j =>
    show (x.lineEdge.set k true).get j = _
    rw [Table.get_set]
    by_cases same : k = j
    · simp [same]
    · simp [same, Notices.has]
  all_goals simp [Notices.add, Notices.has] <;> rfl

theorem Notices.has_add_cold (x : Notices) (m : Notice) :
    (x.add (.restarted .cold)).has m = if m = .restarted .dip then false else decide (.restarted .cold = m) || x.has m := by
  cases m
  case restarted kind => cases kind <;> simp [Notices.add, Notices.has]
  all_goals simp [Notices.add, Notices.has]

/-- RESTARTED(DIP) folds into a RESTARTED(COLD) already present (R167). -/
theorem Notices.has_add_dip (x : Notices) (m : Notice) :
    (x.add (.restarted .dip)).has m = if m = .restarted .dip then !x.has (.restarted .cold) else x.has m := by
  cases m
  case restarted kind =>
    rcases before : x.restarted with _ | ⟨_ | _⟩ <;> cases kind <;> simp [Notices.add, Notices.has, before]
  all_goals simp [Notices.add, Notices.has]

/-- Every other notice is a mark of its own. -/
theorem Notices.has_add_mark (x : Notices) {n : Notice} (line : ∀ k, n ≠ .lineEdge k) (restart : ∀ k, n ≠ .restarted k)
    (m : Notice) : (x.add n).has m = (decide (n = m) || x.has m) := by
  cases n
  case lineEdge k => exact absurd rfl (line k)
  case restarted k => exact absurd rfl (restart k)
  all_goals
    cases m <;> simp [Notices.add, Notices.has]
    rfl

theorem Notices.has_without (x carried : Notices) (m : Notice) : (x.without carried).has m = (x.has m && !carried.has m) := by
  cases m
  case lineEdge k => exact Table.get_tabulate _ k
  case restarted kind =>
    rw [Bool.eq_iff_iff, Bool.and_eq_true, Bool.not_eq_true', ← Bool.not_eq_true]
    simp only [Notices.has, decide_eq_true_eq]
    show (if x.restarted = carried.restarted then none else x.restarted) = some kind ↔ _
    by_cases same : x.restarted = carried.restarted
    · simp [same]
    · rw [if_neg same]
      exact ⟨fun here => ⟨here, fun other => same (here.trans other.symm)⟩, And.left⟩
  all_goals rfl

/-- Settles O7: what each notice adds, by its kind, and what is left once some have been carried. -/
theorem noticesFoldAndClear : Obligations.NoticesFoldAndClear := by
  refine ⟨fun n m x => ?_, fun m x carried => x.has_without carried m⟩
  by_cases line : ∃ k, n = .lineEdge k
  · obtain ⟨k, rfl⟩ := line
    simp [x.has_add_lineEdge k m]
  by_cases restart : ∃ k, n = .restarted k
  · obtain ⟨_ | _, rfl⟩ := restart
    · rw [x.has_add_cold m]
      by_cases dip : m = .restarted .dip <;> simp [dip]
    · rw [x.has_add_dip m]
      by_cases dip : m = .restarted .dip
      · simp [dip]
      · simp [dip, Ne.symm dip]
  · push Not at line restart
    simp [x.has_add_mark line restart m, restart]

/-- Settles O6. -/
theorem replySentClearsTheHead : Obligations.ReplySentClearsTheHead := by
  intro s l running
  refine congrArg Host.Outcome.next ((whileRunning_running running).trans ?_)
  rw [State.modPort, Port.replySent]
  cases (s.port l).head
  case replying => rfl
  case untaken | timed => exact State.setPort_port s l

end Sys2Proof.Machine
end

section
namespace Sys2Proof.Machine

variable (s : State)

/-! ### TAKE_LEAD, YIELD_LEAD and LINK_SETUP (R161, R163, R164) -/

theorem State.role_of_deskOf {l : Link} {d : Desk} (h : deskOf l = some d) :
    s.role l = if s.lead = some d then .lead else .shadow := by
  rw [State.role, h]

/-- Settles O12: R163's table row by row, and R164's by the role of the sender. -/
theorem leadRequestsFollowTheirTables : Obligations.LeadRequestsFollowTheirTables := by
  refine ⟨fun s l tag b hh => ?_, fun s l tag hh => ?_⟩ <;>
    refine congrArg Host.Outcome.next ((requestRow_atHead _ hh).trans ?_)
  · rcases hd : deskOf l with _ | d
    · simp only [decideTakeLead, readByte, hd, settle_answer]
    simp only [decideTakeLead, readByte, hd, switchValue_byte]
    by_cases bad : b ≠ 0 ∧ b ≠ 1
    · simp only [if_pos bad, settle_answer]
    · simp only [if_neg bad, settle_ite, settle_answer, decide_eq_true_eq]
      rfl
  · rcases hd : deskOf l with _ | d
    · simp only [decideYieldLead, readNothing, State.role, hd, settle_answer]
    simp only [decideYieldLead, readNothing, s.role_of_deskOf hd]
    by_cases leads : s.lead = some d
    · simp only [if_pos leads, settle_answer]
      rfl
    · simp only [if_neg leads, settle_answer]

/-- The code of a taken LINK_SETUP: OK unless a limit was held to its range (R161). -/
theorem okOr_limits (a b c : Nat) :
    okOr (decide (clampLimit a ≠ a) || decide (clampLimit b ≠ b) || decide (clampLimit c ≠ c)) =
      if clampLimit a = a ∧ clampLimit b = b ∧ clampLimit c = c then .ok else .clamped := by
  unfold okOr
  by_cases ha : clampLimit a = a <;> by_cases hb : clampLimit b = b <;> by_cases hc : clampLimit c = c <;> simp [ha, hb, hc]

/-- Settles O13: the fields, the role and the save in R161's order, then the write. -/
theorem linkSetupFollowsItsRule : Obligations.LinkSetupFollowsItsRule := by
  intro s l tag a b c f hh
  refine congrArg Host.Outcome.next ((requestRow_atHead _ hh).trans ?_)
  rcases hd : deskOf l with _ | d
  · simp only [decideLinkSetup, readLinkSetup, hd, settle_answer]
  simp only [decideLinkSetup, readLinkSetup, hd, switchValue_byte]
  by_cases bad : f ≠ 0 ∧ f ≠ 1
  · simp only [if_pos bad, settle_answer]
  · simp only [if_neg bad, settle_refuseFirst_lead s hd, settle_refuseFirst_cons, savingRig_iff, refuseFirst_nil,
      settle_answer, okOr_limits]
    rfl

end Sys2Proof.Machine
end

section
namespace Sys2Proof.Machine

variable (s : State)

/-! ### The expiry of a silence monitor (R160, R165, R19, R119) -/

/-- Lead control at the silence of desk `d`, in terms of whether the lead fails over (R165). -/
theorem State.leadSilent_spec (d : Desk) {failover : Prop} [Decidable failover]
    (h : failover ↔ s.lead = some d ∧ s.rig.linkSetup.failover = true ∧ (s.port (linkOf (otherDesk d))).state = .live) :
    (s.leadSilent d).lead = (if s.lead = some d then (if failover then some (otherDesk d) else none) else s.lead) ∧
    (∀ m, (s.leadSilent d).port m = { s.port m with
      notices := if failover then { (s.port m).notices with failover := true } else (s.port m).notices }) ∧
    s.leadSilent d = { s with lead := (s.leadSilent d).lead, ports := (s.leadSilent d).ports } := by
  obtain ⟨other, same⟩ | ⟨leads, on, live, same⟩ | ⟨leads, stays, same⟩ := s.leadSilent_cases d <;> rw [same]
  · have stays : ¬ failover := fun f => other (h.1 f).1
    simp only [if_neg other, if_neg stays]
    exact ⟨trivial, fun _ => trivial, trivial⟩
  · have passes : failover := h.2 ⟨leads, on, live⟩
    simp only [if_pos leads, if_pos passes]
    exact ⟨rfl, fun m => State.port_notifyAll _ m _, rfl⟩
  · have stays : ¬ failover := fun f => stays (h.1 f).2
    simp only [if_pos leads, if_neg stays]
    exact ⟨rfl, fun _ => rfl, rfl⟩

/-- The fills at the silence of desk `d`: its own ended, the slot it was filling EMPTY, and the other desk's record of that slot
cleared (R19). -/
theorem State.endFill_spec (d : Desk) :
    (s.endFill d).fill (otherDesk d) = ((s.fill (otherDesk d)).bind fun f =>
      if s.fill d = some ⟨f.slot, .filling⟩ then none else some f) ∧
    ∀ u, (s.endFill d).slot u = if s.fill d = some ⟨u, .filling⟩ then .empty else s.slot u := by
  have other : d ≠ otherDesk d := by cases d <;> decide
  obtain ⟨t, h, e⟩ | ⟨none, e⟩ := s.endFill_cases d <;> rw [e]
  · simp only [h, Option.some.injEq, Fill.mk.injEq, and_true, eq_comm (a := t)]
    refine ⟨?_, s.slot_emptySlot t⟩
    rw [State.fill_setFill, if_neg other, State.fill_emptySlot, fillAfterEmpty_eq]
  · simp only [none, if_false]
    refine ⟨?_, fun _ => rfl⟩
    rw [State.fill_setFill, if_neg other]
    cases s.fill (otherDesk d) <;> rfl

/-- Settles O14: the port alone, then the lead (`State.leadSilent_spec`) and the fills (`State.endFill_spec`) of a desk. -/
theorem silenceExpiryActsOnItsLink : Obligations.SilenceExpiryActsOnItsLink := by
  intro s running
  have expired (l : Link) : exec (.silenceMonitorExpiry l) s = .next (s.silence l) :=
    congrArg Host.Outcome.next (whileRunning_running running)
  refine ⟨fun l silent => ?_, fun live => ?_, fun d live => ?_⟩ <;> rw [expired, State.silence]
  · rw [if_pos silent]
  · rw [if_neg (by rw [live]; decide)]
    rfl
  · rw [if_neg (by rw [live]; decide), deskOf_linkOf]
    have apart : linkOf d ≠ linkOf (otherDesk d) := by cases d <;> decide
    have fallen : (s.modPort (linkOf d) Port.fallSilent).port (linkOf d) = (s.port (linkOf d)).fallSilent :=
      State.port_modPort_self s _ _
    have others {m : Link} (h : m ≠ linkOf d) : (s.modPort (linkOf d) Port.fallSilent).port m = s.port m := by
      rw [State.port_modPort, if_neg h.symm]
    have fills (e : Desk) : (s.modPort (linkOf d) Port.fallSilent).fill e = s.fill e := by
      rw [State.fill, State.port_modPort]
      split <;> rfl
    obtain ⟨lead, port, rest⟩ := (s.modPort (linkOf d) Port.fallSilent).leadSilent_spec d
      (failover := s.lead = some d ∧ s.rig.linkSetup.failover = true ∧ (s.port (linkOf (otherDesk d))).state = .live)
      (by rw [others apart.symm]; rfl)
    dsimp only
    generalize (s.modPort (linkOf d) Port.fallSilent).leadSilent d = w at lead port rest
    have fill (e : Desk) : w.fill e = s.fill e := by rw [State.fill, port]; exact fills e
    have slot (u : Fin 32) : w.slot u = s.slot u := by rw [rest]; rfl
    obtain ⟨ports, remote, slots⟩ := w.endFill_only d
    obtain ⟨otherFill, emptied⟩ := w.endFill_spec d
    refine ⟨_, rfl, ?_, ?_, fun m hm => ?_, ?_, ?_, fun u => ?_, ?_⟩
    · rw [slots]
      exact lead
    · have own : ((w.endFill d).port (linkOf d)).fill = none := w.fill_endFill d
      rw [ports, port, fallen, own]
      rfl
    · rw [ports, port, others hm]
    · rw [otherFill, fill, fill]
    · rw [remote, port, others (by cases d <;> decide)]
    · rw [emptied, fill, slot]
    · rw [slots, rest]
      rfl

end Sys2Proof.Machine
end

section
namespace Sys2Proof.Machine

variable {body : List Byte}

/-! ### Bodies of the wrong size (R158, R184) -/

/-- A body that does not fit a kind of a fixed size has another length. -/
theorem length_ne_of_unfit {k : Byte} {n : Nat} (size : fixedSize k = some n) (unfit : ¬ sizeFits k body) : body.length ≠ n := by
  rintro rfl
  refine unfit ?_
  unfold sizeFits
  split
  · next h => subst h; cases size
  split
  · next h => subst h; cases size
  split
  · next h => subst h; cases size
  · exact size

theorem readNothing_none (h : body.length ≠ 0) : readNothing body = none := by
  unfold readNothing
  split
  exacts [absurd rfl h, rfl]

theorem readByte_none (h : body.length ≠ 1) : readByte body = none := by
  unfold readByte
  split
  exacts [absurd rfl h, rfl]

theorem readBytes2_none (h : body.length ≠ 2) : readBytes2 body = none := by
  unfold readBytes2
  split
  exacts [absurd rfl h, rfl]

theorem readBytes3_none (h : body.length ≠ 3) : readBytes3 body = none := by
  unfold readBytes3
  split
  exacts [absurd rfl h, rfl]

theorem readByteWord_none (h : body.length ≠ 3) : readByteWord body = none := by
  unfold readByteWord
  split
  exacts [absurd rfl h, rfl]

theorem readWordByte_none (h : body.length ≠ 3) : readWordByte body = none := by
  unfold readWordByte
  split
  exacts [absurd rfl h, rfl]

theorem readWord_none (h : body.length ≠ 2) : readWord body = none := by
  unfold readWord
  split
  exacts [absurd rfl h, rfl]

theorem readWords2_none (h : body.length ≠ 4) : readWords2 body = none := by
  unfold readWords2
  split
  exacts [absurd rfl h, rfl]

theorem readLinkSetup_none (h : body.length ≠ 4) : readLinkSetup body = none := by
  unfold readLinkSetup
  split
  exacts [absurd rfl h, rfl]

theorem readCueOpen_none (h : body.length ≠ 16) : readCueOpen body = none := by
  unfold readCueOpen
  split
  exacts [absurd rfl h, rfl]

theorem readGo_none (h : body.length ≠ 4) : readGo body = none := by
  unfold readGo
  split
  exacts [absurd rfl h, rfl]

theorem readPlaybackSetup_none (h : body.length ≠ 5) : readPlaybackSetup body = none := by
  unfold readPlaybackSetup
  split
  exacts [absurd rfl h, rfl]

theorem readPatchSet_none (h : body.length ≠ 6) : readPatchSet body = none := by
  unfold readPatchSet
  split
  exacts [absurd rfl h, rfl]

theorem readProfileSet_none (h : body.length ≠ 8) : readProfileSet body = none := by
  unfold readProfileSet
  split
  exacts [absurd rfl h, rfl]

theorem readFlash_none (h : body.length ≠ 8) : readFlash body = none := by
  unfold readFlash
  split
  exacts [absurd rfl h, rfl]

theorem readLineSetup_none (h : body.length ≠ 6) : readLineSetup body = none := by
  unfold readLineSetup
  split
  exacts [absurd rfl h, rfl]

theorem readRead_none (h : body.length ≠ 4) : readRead body = none := by
  unfold readRead
  split
  exacts [absurd rfl h, rfl]

theorem readLawLoad_none (h : body.length ≠ 35) : readLawLoad body = none := by
  unfold readLawLoad
  split
  · exact dif_neg fun points => h (congrArg Nat.succ points.2)
  · rfl

theorem sizeFits_cueMoves : sizeFits kindCueMoves body ↔ ∃ s n rest, body = s :: n :: rest ∧ rest.length = 8 * n.toNat := by
  unfold sizeFits
  rw [if_pos rfl]

theorem sizeFits_manual :
    sizeFits kindManual body ↔ ∃ p t1 t0 n rest, body = p :: t1 :: t0 :: n :: rest ∧ rest.length = 4 * n.toNat := by
  unfold sizeFits
  rw [if_neg (by decide), if_pos rfl]

theorem sizeFits_lookSet :
    sizeFits kindLookSet body ↔ ∃ x p n rest, body = x :: p :: n :: rest ∧ rest.length = 4 * n.toNat := by
  unfold sizeFits
  rw [if_neg (by decide), if_neg (by decide), if_pos rfl]

theorem readCueMoves_none (unfit : ¬ sizeFits kindCueMoves body) : readCueMoves body = none := by
  unfold readCueMoves
  split
  · exact if_neg fun length => unfit (sizeFits_cueMoves.2 ⟨_, _, _, rfl, length⟩)
  · rfl

theorem readManual_none (unfit : ¬ sizeFits kindManual body) : readManual body = none := by
  unfold readManual
  split
  · exact if_neg fun length => unfit (sizeFits_manual.2 ⟨_, _, _, _, _, rfl, length⟩)
  · rfl

theorem readLookSet_none (unfit : ¬ sizeFits kindLookSet body) : readLookSet body = none := by
  unfold readLookSet
  split
  · exact if_neg fun length => unfit (sizeFits_lookSet.2 ⟨_, _, _, _, rfl, length⟩)
  · rfl

/-! ### The rows of the known kinds (R158, R184) -/

/-- The row of a known kind stands for the request, is not UNKNOWN_KIND, and its reply adds 0x80 to the kind. -/
theorem rowOf_known {kind : Byte} (known : knownKind kind = true) (l : Link) (tag : Byte) (body : List Byte) :
    (rowOf l ⟨kind, tag, body⟩).request? = some (l, ⟨kind, tag, body⟩) ∧
      (∀ l' k' t' b', rowOf l ⟨kind, tag, body⟩ ≠ .unknownKind l' k' t' b') ∧ replyKind kind = kind + 0x80 := by
  simp only [knownKind, List.contains_eq_mem, decide_eq_true_eq, List.mem_cons, List.not_mem_nil, or_false] at known
  rcases known with rfl | rfl | rfl | rfl | rfl | rfl | rfl | rfl | rfl | rfl | rfl | rfl | rfl | rfl | rfl | rfl | rfl | rfl |
    rfl | rfl | rfl | rfl | rfl | rfl | rfl | rfl | rfl | rfl | rfl | rfl | rfl | rfl | rfl | rfl | rfl | rfl
  all_goals exact ⟨rfl, nofun, rfl⟩

/-- Each block reads its body first, and decides BAD_FIELD on one of the wrong size, whatever the role (R158). -/
theorem decisionOf_unfit {i : Instr} {l : Link} {r : Request} (h : i.request? = some (l, r))
    (listed : ∀ l k tag body, i ≠ .unknownKind l k tag body) (unfit : ¬ sizeFits r.kind r.body) (role : Role) (s : State) :
    decisionOf i role s = answer .badField s := by
  cases i <;> cases h
  case unknownKind => exact absurd rfl (listed _ _ _ _)
  case status => simp only [decisionOf, decideStatus, readNothing_none (length_ne_of_unfit rfl unfit)]
  case yieldLead => simp only [decisionOf, decideYieldLead, readNothing_none (length_ne_of_unfit rfl unfit)]
  case takeLead => simp only [decisionOf, decideTakeLead, readByte_none (length_ne_of_unfit rfl unfit)]
  case cueClose => simp only [decisionOf, decideCueClose, readByte_none (length_ne_of_unfit rfl unfit)]
  case cueDrop => simp only [decisionOf, decideCueDrop, readByte_none (length_ne_of_unfit rfl unfit)]
  case back => simp only [decisionOf, decideBack, readByte_none (length_ne_of_unfit rfl unfit)]
  case release => simp only [decisionOf, decideRelease, readByte_none (length_ne_of_unfit rfl unfit)]
  case hold | resume => simp only [decisionOf, decideHolds, readByte_none (length_ne_of_unfit rfl unfit)]
  case bankClear => simp only [decisionOf, decideBankClear, readByte_none (length_ne_of_unfit rfl unfit)]
  case bankSelect => simp only [decisionOf, decideBankSelect, readByte_none (length_ne_of_unfit rfl unfit)]
  case startBank => simp only [decisionOf, decideStartBank, readByte_none (length_ne_of_unfit rfl unfit)]
  case lookRaise | lookLower => simp only [decisionOf, decideRaise, readByte_none (length_ne_of_unfit rfl unfit)]
  case bankCopy => simp only [decisionOf, decideBankCopy, readBytes2_none (length_ne_of_unfit rfl unfit)]
  case save => simp only [decisionOf, decideSave, readBytes2_none (length_ne_of_unfit rfl unfit)]
  case rackSetup => simp only [decisionOf, decideRackSetup, readBytes3_none (length_ne_of_unfit rfl unfit)]
  case rate => simp only [decisionOf, decideRate, readByteWord_none (length_ne_of_unfit rfl unfit)]
  case pbLevel => simp only [decisionOf, decidePbLevel, readByteWord_none (length_ne_of_unfit rfl unfit)]
  case nudge => simp only [decisionOf, decideNudge, readWordByte_none (length_ne_of_unfit rfl unfit)]
  case grand => simp only [decisionOf, decideGrand, readWordByte_none (length_ne_of_unfit rfl unfit)]
  case unpark => simp only [decisionOf, decideUnpark, readWord_none (length_ne_of_unfit rfl unfit)]
  case park => simp only [decisionOf, decidePark, readWords2_none (length_ne_of_unfit rfl unfit)]
  case read => simp only [decisionOf, decideRead, readRead_none (length_ne_of_unfit rfl unfit)]
  case linkSetup => simp only [decisionOf, decideLinkSetup, readLinkSetup_none (length_ne_of_unfit rfl unfit)]
  case cueOpen => simp only [decisionOf, decideCueOpen, readCueOpen_none (length_ne_of_unfit rfl unfit)]
  case go => simp only [decisionOf, decideGo, readGo_none (length_ne_of_unfit rfl unfit)]
  case playbackSetup => simp only [decisionOf, decidePlaybackSetup, readPlaybackSetup_none (length_ne_of_unfit rfl unfit)]
  case patchSet => simp only [decisionOf, decidePatchSet, readPatchSet_none (length_ne_of_unfit rfl unfit)]
  case profileSet => simp only [decisionOf, decideProfileSet, readProfileSet_none (length_ne_of_unfit rfl unfit)]
  case lawLoad => simp only [decisionOf, decideLawLoad, readLawLoad_none (length_ne_of_unfit rfl unfit)]
  case flash => simp only [decisionOf, decideFlash, readFlash_none (length_ne_of_unfit rfl unfit)]
  case lineSetup => simp only [decisionOf, decideLineSetup, readLineSetup_none (length_ne_of_unfit rfl unfit)]
  case cueMoves => simp only [decisionOf, decideCueMoves, readCueMoves_none unfit]
  case manual => simp only [decisionOf, decideManual, readManual_none unfit]
  case lookSet => simp only [decisionOf, decideLookSet, readLookSet_none unfit]

/-- Settles O9: every block decides BAD_FIELD on the state as it stands (`decisionOf_unfit`). -/
theorem wrongBodySizeIsBadField : Obligations.WrongBodySizeIsBadField := by
  intro s l kind tag body known unfit hh
  obtain ⟨request, listed, reply⟩ := rowOf_known known l tag body
  rw [exec_request request fun _ _ _ _ h => absurd h (listed _ _ _ _), requestRow_atHead _ hh,
    decisionOf_unfit request listed unfit, ← reply]
  exact congrArg Host.Outcome.next (hh.answerHead .badField [] {})

end Sys2Proof.Machine
end

section
namespace Sys2Proof.Machine

variable (s : State) (l : Link)

/-! ### The fields of the STATUS body (R185) -/

/-- The groups of fields of R185's table in their order; `State.statusBody_eq_flatten` joins them to the body. -/
def State.statusFields : List (List Byte) :=
  [[(s.lead.map deskByte).getD 0, stateByte s.ports.a.state, stateByte s.ports.b.state, stateByte s.ports.c.state],
   s.playbackBytes 0, s.playbackBytes 1, s.playbackBytes 2, s.playbackBytes 3,
   bytes16 s.grand ++ [bit s.blackout],
   bytes16 (s.rack 0).lit ++ bytes16 (s.rack 1).lit ++ bytes16 (s.rack 2).lit,
   [byteOf (s.liveBank.val + 1), bit s.rebuilding, savingByte s.saving],
   flags4 s.asserted, flags4 s.raised,
   bytes16 s.freeMoves ++ bytes16 s.freePairs ++ bytes16 s.lawFaults,
   (s.port l).notices.bytes]

/-- The widths of the fields. -/
def statusWidths : List Nat := [4, 9, 9, 9, 9, 3, 6, 3, 4, 4, 6, 13]

theorem State.statusBody_eq_flatten : s.statusBody l = (s.statusFields l).flatten := by
  simp only [State.statusBody, State.statusFields, List.flatten_cons, List.flatten_nil, List.append_nil, List.append_assoc]

theorem State.statusFields_length : (s.statusFields l).map List.length = statusWidths := rfl

theorem State.statusBody_length : (s.statusBody l).length = 79 := by
  rw [State.statusBody_eq_flatten, List.length_flatten, State.statusFields_length]
  rfl

/-- The `k`-th field stands where the widths before it end. -/
theorem State.statusBody_field {k i n : Nat} {field : List Byte} (hk : (s.statusFields l)[k]? = some field)
    (start : (statusWidths.take k).sum = i) (stop : (statusWidths.take (k + 1)).sum = i + n) :
    ((s.statusBody l).drop i).take n = field := by
  obtain ⟨inside, rfl⟩ := List.getElem?_eq_some_iff.1 hk
  have slice := List.drop_take_succ_flatten_eq_getElem (s.statusFields l) k inside
  rwa [State.statusFields_length, start, stop, ← State.statusBody_eq_flatten, List.drop_take, Nat.add_sub_cancel_left] at slice

theorem stateByte_eq (x : LinkState) : stateByte x = if x = .live then 1 else 0 := by
  cases x <;> rfl

theorem leadByte_eq (lead : Option Desk) :
    (lead.map deskByte).getD 0 = match lead with | none => 0 | some .a => 1 | some .b => 2 := by
  rcases lead with _ | _ | _ <;> rfl

theorem flags4_getElem (f : Fin 4 → Bool) (n : Fin 4) : (flags4 f)[n.val]? = some (bit (f n)) := by
  simp only [flags4, List.getElem?_ofFn, n.isLt, dite_true, Fin.eta]

/-- The four marks of a LINE_EDGE add up as numbers do. -/
theorem lineSum_eq (t : Table 4 Bool) :
    lineSum t = bit (t.get 0) + 2 * bit (t.get 1) + 4 * bit (t.get 2) + 8 * bit (t.get 3) := by
  unfold lineSum
  generalize t.get 0 = a, t.get 1 = b, t.get 2 = c, t.get 3 = d
  revert a b c d
  decide

/-- A byte of a run of four flags, by the run's place in the body. -/
theorem State.statusBody_flag {i : Nat} {f : Fin 4 → Bool} (run : ((s.statusBody l).drop i).take 4 = flags4 f) (n : Fin 4) :
    (s.statusBody l)[i + n.val]? = some (bit (f n)) := by
  rw [← flags4_getElem, ← run, List.getElem?_take_of_lt n.isLt, List.getElem?_drop]

theorem State.statusBody_playback (p : Fin 4) : ((s.statusBody l).drop (4 + 9 * p.val)).take 9 = s.playbackBytes p := by
  match p with
  | 0 => exact s.statusBody_field l (k := 1) rfl rfl rfl
  | 1 => exact s.statusBody_field l (k := 2) rfl rfl rfl
  | 2 => exact s.statusBody_field l (k := 3) rfl rfl rfl
  | 3 => exact s.statusBody_field l (k := 4) rfl rfl rfl

theorem savingByte_eq (saving : Option Saving) :
    savingByte saving = match saving with | none => 0 | some ⟨.bank n, _⟩ => byteOf (n.val + 1) | some ⟨.rig, _⟩ => 5 := by
  rcases saving with _ | ⟨_ | _, _⟩ <;> rfl

theorem Notices.bytes_eq (x : Notices) :
    x.bytes = [bit x.failover, bit x.leadTaken, bit x.forced, bit x.backLost, bit x.followLapsed, bit x.diverged, bit x.lawFault,
      bit (x.lineEdge.get 0) + 2 * bit (x.lineEdge.get 1) + 4 * bit (x.lineEdge.get 2) + 8 * bit (x.lineEdge.get 3),
      bit x.overrun, match x.restarted with | none => 0 | some .cold => 1 | some .dip => 2,
      bit x.saveLost, bit x.bankLost, bit x.rigLost] := by
  rw [Notices.bytes, lineSum_eq]
  rcases x.restarted with _ | _ | _ <;> rfl

/-- Settles O16, field by field (`State.statusBody_field`). -/
theorem statusReportsTheState : Obligations.StatusReportsTheState := by
  intro s l tag hh
  have lead := s.statusBody_field l (k := 0) rfl rfl (n := 4) rfl
  have grand := s.statusBody_field l (k := 5) rfl rfl (n := 3) rfl
  have racks := s.statusBody_field l (k := 6) rfl rfl (n := 6) rfl
  have bank := s.statusBody_field l (k := 7) rfl rfl (n := 3) rfl
  have asserted := s.statusBody_field l (k := 8) rfl rfl (n := 4) rfl
  have raised := s.statusBody_field l (k := 9) rfl rfl (n := 4) rfl
  have free := s.statusBody_field l (k := 10) rfl rfl (n := 6) rfl
  have notices := s.statusBody_field l (k := 11) rfl rfl (n := 13) rfl
  rw [leadByte_eq, stateByte_eq, stateByte_eq, stateByte_eq] at lead
  rw [savingByte_eq] at bank
  rw [Notices.bytes_eq, List.take_of_length_le (by rw [List.length_drop, State.statusBody_length]; decide)] at notices
  exact ⟨s.statusBody l, congrArg Host.Outcome.next (requestRow_atHead _ hh), s.statusBody_length l, lead,
    s.statusBody_playback l, grand, racks, bank, fun n => ⟨s.statusBody_flag l asserted n, s.statusBody_flag l raised n⟩,
    free, notices⟩

end Sys2Proof.Machine
end

/-! Proofs: the store and the part right after reset. -/
section
namespace Sys2Proof.Machine

variable {s t u : State} {l : Link} {decision : Role → State → Verdict}

/-! ### The working copies (R173) -/

/-- From `s` to `t` the working banks and the working rig record stand. -/
structure SameWorking (s t : State) : Prop where
  banks : t.banks = s.banks
  rig : t.rig = s.rig

theorem SameWorking.of_units (patch : SamePatch s t) (rig : SameRig s t) : SameWorking s t := ⟨patch.banks, rig.rig⟩

theorem SameWorking.of_beside (h : SameBeside s t) : SameWorking s t := .of_units (.of_beside h) (.of_beside h)

theorem SameWorking.settle (l : Link) (v : Verdict) : SameWorking v.state (settle l v) := .of_units (.settle l v) (.settle l v)

/-- A save's end writes only the stored item (R176). -/
theorem SameWorking.saveEnd : SameWorking s s.saveEnd := by
  unfold State.saveEnd
  split
  · exact ⟨rfl, rfl⟩
  · next x _ =>
    have answered (v : State) : SameWorking v (v.answerTimed x.link .ok) := .of_units (.answerTimed _ _) (.answerTimed _ _)
    obtain ⟨banks, rig⟩ := answered { s.storeWorking x.cls with saving := none }
    cases h : x.cls <;> rw [h] at banks rig <;> exact ⟨banks, rig⟩

/-- The end of a rebuild makes the map and leaves the banks (R88). -/
theorem SameWorking.endRebuild : SameWorking s s.endRebuild := by
  refine ⟨?_, SameRig.endRebuild.rig⟩
  have framed (v : State) : v.firstFrames.banks = v.banks := rfl
  have answered (v : State) (d : Desk) : (v.answerTimed d .ok).banks = v.banks := (SamePatch.answerTimed d .ok).banks
  rcases h : s.rebuild with _ | ⟨n, _ | d, _ | _⟩
  · rw [State.endRebuild_idle h]
  all_goals rw [State.endRebuild_eq h]
  · rfl
  · exact framed _
  · exact answered _ d
  · exact (framed _).trans (answered _ d)

/-- From `s` to `t` the working copy of the class whose save is in flight in `s` stands (R175). -/
structure SparesSaved (s t : State) : Prop where
  bank : ∀ n, s.saving.map (·.cls) = some (.bank n) → t.bank n = s.bank n
  rig : s.saving.map (·.cls) = some .rig → t.rig = s.rig

theorem SparesSaved.of_same (h : SameWorking s t) : SparesSaved s t :=
  ⟨fun n _ => by rw [State.bank, State.bank, h.banks], fun _ => h.rig⟩

theorem SparesSaved.refl (s : State) : SparesSaved s s := ⟨fun _ _ => rfl, fun _ => rfl⟩

theorem SparesSaved.before (h : SparesSaved s t) (k : SameWorking t u) : SparesSaved s u :=
  ⟨fun n saved => by rw [State.bank, k.banks]; exact h.bank n saved, fun saved => k.rig.trans (h.rig saved)⟩

/-! ### The edits are refused while their class is being saved (R175) -/

section
variable {checks : List (Bool × ResultCode)} {taken : Verdict}

/-- An edit of one bank that its check for STORE_BUSY guards. -/
theorem SparesSaved.editBank {n : Fin 4} (busy : (s.savingBank n, .storeBusy) ∈ checks)
    (others : ∀ m, n ≠ m → taken.state.bank m = s.bank m) (rig : taken.state.rig = s.rig) :
    SparesSaved s (refuseFirst checks s taken).state := by
  refine refuseFirst_keeps checks (.refl s) fun pass => ⟨fun m saved => others m ?_, fun _ => rig⟩
  rintro rfl
  exact Bool.false_ne_true ((pass _ busy).symm.trans ((s.savingBank_iff n).2 saved))

/-- An edit of the rig record that its check for STORE_BUSY guards. -/
theorem SparesSaved.editRig (busy : (s.savingRig, .storeBusy) ∈ checks) (banks : taken.state.banks = s.banks) :
    SparesSaved s (refuseFirst checks s taken).state := by
  refine refuseFirst_keeps checks (.refl s) fun pass => ⟨fun n _ => ?_, fun saved => ?_⟩
  · rw [State.bank, banks, State.bank]
  · exact absurd ((pass _ busy).symm.trans ((savingRig_iff s).2 saved)) Bool.false_ne_true

end

section
variable (l : Link) (body : List Byte) (role : Role) (s : State)

theorem State.bank_setBank_other {n m : Fin 4} (b : List PatchEntry) (other : n ≠ m) : (s.setBank n b).bank m = s.bank m := by
  rw [State.bank_setBank, if_neg other]

theorem decidePatchSet_spares : SparesSaved s (decidePatchSet l body role s).state := by
  unfold decidePatchSet
  repeat' split
  any_goals exact .refl s
  refine .editBank (.tail _ (.tail _ (.head _))) (fun m other => ?_) ?_ <;> rw [answer_state, s.patch_eq] <;> split
  · exact s.bank_setBank_other _ other
  · exact s.bank_setBank_other _ other
  · rfl
  · rfl

theorem decideProfileSet_spares : SparesSaved s (decideProfileSet l body role s).state := by
  unfold decideProfileSet
  repeat' split
  any_goals exact .refl s
  refine .editRig (.tail _ (.tail _ (.tail _ (.tail _ (.head _))))) ?_
  rw [answer_state, State.setProfile]
  dsimp only
  split <;> rfl

theorem decideLineSetup_spares : SparesSaved s (decideLineSetup l body role s).state := by
  unfold decideLineSetup
  repeat' split
  any_goals exact .refl s
  refine .editRig (.tail _ (.head _)) ?_
  rw [answer_state, State.setupLine, State.edge]
  dsimp only
  repeat' split
  all_goals rfl

end

/-! ### One step -/

/-- No request changes the working copy of the class being saved. -/
theorem decisionOf_spares (c : Instr) (role : Role) (s : State) : SparesSaved s (decisionOf c role s).state := by
  cases c
  -- The edits, each behind its check for STORE_BUSY.
  case patchSet => exact decidePatchSet_spares _ _ role s
  case profileSet => exact decideProfileSet_spares _ _ role s
  case lineSetup => exact decideLineSetup_spares _ _ role s
  case bankClear | bankCopy =>
    simp only [decisionOf, decideBankClear, decideBankCopy]
    repeat' split
    any_goals exact .refl s
    all_goals exact .editBank (.tail _ (.tail _ (.tail _ (.head _)))) (fun _ => s.bank_setBank_other _) rfl
  case linkSetup | playbackSetup | startBank | rackSetup =>
    simp only [decisionOf, decideLinkSetup, decidePlaybackSetup, decideStartBank, decideRackSetup]
    repeat' split
    any_goals exact .refl s
    all_goals exact .editRig (.tail _ (.head _)) rfl
  case lawLoad | lookSet =>
    simp only [decisionOf, decideLawLoad, decideLookSet]
    repeat' split
    any_goals exact .refl s
    all_goals exact .editRig (.tail _ (.tail _ (.tail _ (.tail _ (.head _))))) rfl
  all_goals refine .of_same ?_
  case save => exact .of_units (decideSave_samePatch _ _ role s) (decideSave_sameRig _ _ role s)
  case cueOpen => exact .of_units (decideCueOpen_samePatch _ _ role s) (decideCueOpen_sameRig _ _ role s)
  case go => exact .of_units (decideGo_samePatch _ _ role s) (decideGo_sameRig _ _ role s)
  case back => exact .of_units (decideBack_samePatch _ _ role s) (decideBack_sameRig _ _ role s)
  case manual => exact .of_units (decideManual_samePatch _ _ role s) (decideManual_sameRig _ _ role s)
  case release => exact .of_units (decideRelease_samePatch _ _ role s) (decideRelease_sameRig _ _ role s)
  case hold => exact .of_units (decideHolds_samePatch _ _ role s true) (decideHolds_sameRig _ _ role s true)
  case resume => exact .of_units (decideHolds_samePatch _ _ role s false) (decideHolds_sameRig _ _ role s false)
  -- No branch of the other requests writes a bank or the rig record.
  case status | read | takeLead | yieldLead | cueMoves | cueClose | cueDrop | rate | pbLevel | bankSelect | park | flash | nudge
      | unpark | lookRaise | lookLower | grand =>
    simp only [decisionOf, decideStatus, decideRead, decideTakeLead, decideYieldLead, decideCueMoves, decideCueClose,
      decideCueDrop, decideRate, decidePbLevel, decideBankSelect, decidePark, decideFlash, setPark, decideNudge, decideUnpark,
      decideRaise, decideGrand, refuseFirst]
    repeat' split
    all_goals exact ⟨rfl, rfl⟩
  all_goals exact ⟨rfl, rfl⟩

/-- A request row spares what its decision spares: arriving and being answered touch no working copy. -/
theorem SparesSaved.requestRow (q : Request) (hd : ∀ role v, SparesSaved v (decision role v).state) :
    SparesSaved s (requestRow l q decision s) := by
  have received : SameWorking s (s.receive l q) := ⟨rfl, rfl⟩
  obtain ⟨-, h⟩ | ⟨-, h⟩ | ⟨-, -, h⟩ | ⟨-, -, h⟩ := requestRow_cases s l q decision <;> rw [h]
  · exact .refl s
  · exact (hd _ s).before (.settle l _)
  · obtain ⟨bank, rig⟩ := (hd ((s.receive l q).role l) (s.receive l q)).before (.settle l _)
    exact ⟨bank, rig⟩
  · exact .of_same received

/-- An event ends the save or leaves both working copies. -/
theorem exec_event_sameWorking {c : Instr} (event : c.request? = none) (h : exec c s = .next t) :
    t.saving = none ∨ SameWorking s t := by
  have same : SameWorking s s := ⟨rfl, rfl⟩
  have taken {u : State} (h : SameWorking s u) : (whileRunning s u).saving = none ∨ SameWorking s (whileRunning s u) :=
    .inr (whileRunning_keeps same h)
  cases c <;> obtain rfl := Host.Outcome.next.inj h
  case resetAssert =>
    unfold State.lowerReset
    split
    · exact .inl rfl
    · exact .inl rfl
    · exact .inr ⟨rfl, rfl⟩
  case coldStart =>
    unfold State.startCold
    split
    · exact .inl rfl
    · exact .inl rfl
    · exact .inl rfl
    · exact .inr ⟨rfl, rfl⟩
  case dipRestart =>
    unfold State.recover
    split
    · exact .inr same
    · exact .inr same
    · exact .inr (.of_units .dipRestart .dipRestart)
    · exact .inl rfl
  case lineInputChange =>
    refine .inr ?_
    unfold State.inputChange
    dsimp only
    repeat' split
    all_goals exact ⟨rfl, rfl⟩
  case saveEnd => exact taken .saveEnd
  case saveWriteFailure => exact taken (.of_units .saveFailure .saveFailure)
  case rebuildEnd => exact taken .endRebuild
  case fadeTick => exact taken (.of_beside s.tick_beside)
  case followDue => exact taken (.of_beside (State.followDue_beside _))
  case badTelegram | linkByteReceived => exact taken (.of_units (.handOn _ _) (.handOn _ _))
  case silenceMonitorExpiry => exact taken (.of_units (.silence _) (.silence _))
  case validTelegram | interByteGap | replySent | flashTimerExpiry | supplyDip | echoTimerExpiry => exact taken ⟨rfl, rfl⟩
  case debounceTimerExpiry | frameStart =>
    refine taken ?_
    simp only [State.debounceExpiry, State.edge, State.frameStart]
    repeat' split
    all_goals exact ⟨rfl, rfl⟩
  all_goals cases event

/-- Whatever the command, the save in flight is over or the working copy it saves stands. -/
theorem exec_spares {c : Instr} (h : exec c s = .next t) : t.saving = none ∨ SparesSaved s t := by
  rcases hr : c.request? with _ | ⟨l, r⟩
  · exact (exec_event_sameWorking hr h).imp_right .of_same
  by_cases unlisted : ∀ l k tag body, c = .unknownKind l k tag body → knownKind k = false
  · rw [exec_request hr unlisted] at h
    cases h
    exact .inr (.requestRow r (decisionOf_spares c))
  · push Not at unlisted
    obtain ⟨l, k, tag, body, rfl, known⟩ := unlisted
    obtain rfl := (Host.Outcome.next.inj h).symm.trans (if_pos (by simpa using known))
    exact .inr (.refl _)

theorem step_spares (h : step s = .next t) : t.saving = none ∨ SparesSaved s t := by
  unfold step at h
  split at h
  · cases h
    exact .inr (.refl s)
  · exact (exec_spares h).imp_right fun spared => ⟨spared.bank, spared.rig⟩

/-! ### SAVE, its end and its failure (R174 to R177) -/

/-- The class of a SAVE by its bytes. -/
theorem saveClass_byte (x y : Byte) : saveClass x.toNat y.toNat =
    if x = 0 then (numbered 4 y.toNat).map .bank else if x = 1 then some .rig else none := by
  unfold saveClass
  simp only [← BitVec.toNat_inj]
  rfl

theorem settle_decideSave (s : State) (x y : Byte) : settle l (decideSave l [x, y] (s.role l) s) =
    match deskOf l, saveClass x.toNat y.toNat with
    | none, _ => s.answered l .role
    | some _, none => s.answered l .badField
    | some d, some cls =>
      if s.lead ≠ some d then s.answered l .notLead
      else if s.saving.isSome then s.answered l .storeBusy
      else State.setPort { s.invalidate cls with saving := some ⟨cls, d⟩ } l { s.port l with head := .timed } := by
  rcases hd : deskOf l with _ | d
  · simp only [decideSave, readBytes2, hd, settle_answer]
  simp only [decideSave, readBytes2, hd]
  rcases saveClass x.toNat y.toNat with _ | cls
  · rfl
  simp only [settle_refuseFirst_lead s hd, settle_refuseFirst_cons, refuseFirst_nil]
  cases cls <;> rfl

theorem State.answerTimed_timed {d : Desk} (waits : (s.port (linkOf d)).head = .timed) (code : ResultCode) :
    s.answerTimed d code = s.answered (linkOf d) code := by
  rw [State.answerTimed, waits]
  rfl

/-- Without a save in flight neither end has an occasion (log 12). -/
theorem State.save_idle (idle : s.saving = none) : s.saveEnd = s ∧ s.saveFailure = s := by
  rw [State.saveEnd, State.saveFailure, idle]
  exact ⟨rfl, rfl⟩

/-- The end and the failure of the save in flight, whose sender waits for them (R176, R177). -/
theorem State.save_ends {cls : SaveClass} {d : Desk} (h : s.saving = some ⟨cls, d⟩) (waits : (s.port (linkOf d)).head = .timed) :
    s.saveEnd = State.answered { s.storeWorking cls with saving := none } (linkOf d) .ok ∧
      s.saveFailure = State.answered { s.invalidate cls with saving := none } (linkOf d) .storeFault := by
  rw [State.saveEnd, State.saveFailure, h]
  dsimp only
  cases cls <;> refine ⟨State.answerTimed_timed ?_ _, State.answerTimed_timed ?_ _⟩ <;> exact waits

/-- Settles O58: the checks of R174 and R175 (`settle_decideSave`), the two ends of the save in flight by its class
(`State.save_ends`), and, over all commands, the edits that a save refuses (`step_spares`). -/
theorem saveAndItsEndFollowTheirRules : Obligations.SaveAndItsEndFollowTheirRules := by
  refine ⟨fun s l tag x y hh => ?_, fun s running => ?_, fun s t h same => ?_⟩
  · refine congrArg Host.Outcome.next ((requestRow_atHead _ hh).trans ((settle_decideSave s x y).trans ?_))
    rw [saveClass_byte]
    rcases deskOf l with _ | d
    · rfl
    dsimp only
    by_cases bank : x = 0
    · rw [if_pos bank, if_pos bank]
      rcases numbered 4 y.toNat with _ | n <;> rfl
    rw [if_neg bank, if_neg bank]
    by_cases rig : x = 1
    · rw [if_pos rig, if_pos rig]
      rfl
    · rw [if_neg rig, if_neg rig]
  · have ended : exec .saveEnd s = .next s.saveEnd := congrArg Host.Outcome.next (whileRunning_running running)
    have failed : exec .saveWriteFailure s = .next s.saveFailure := congrArg Host.Outcome.next (whileRunning_running running)
    rw [ended, failed]
    refine ⟨fun idle => ?_, fun n d h waits => ?_, fun d h waits => ?_⟩
    · obtain ⟨stays, unfailed⟩ := State.save_idle idle
      exact ⟨congrArg _ stays, congrArg _ unfailed⟩
    all_goals
      obtain ⟨stored, lost⟩ := State.save_ends h waits
      exact ⟨congrArg _ stored, congrArg _ lost⟩
  · obtain ended | ⟨bank, rig⟩ := step_spares h
    · rw [← same, ended]
      exact ⟨nofun, nofun⟩
    · exact ⟨bank, rig⟩

end Sys2Proof.Machine
end

section
namespace Sys2Proof.Machine

variable {s : State}

/-! ### The part right after reset (R179) -/

theorem Blank.reset : Blank State.reset where
  slots := rfl
  fills l := by cases l <;> rfl
  playbacks := rfl
  channels := rfl
  runList := rfl
  grand := rfl
  frames k := congrArg RackLine.last (Table.get_fill RackLine.cold k)

/-- A part with nothing started holds no pair. -/
theorem State.RestoreLegal.of_blank (h : Blank s) : s.RestoreLegal := by
  have stack (p : Fin 4) : (s.playback p).stack = [] := by
    unfold State.playback
    rw [h.playbacks, Table.get_fill]
    rfl
  refine ⟨?_, fun p => by rw [stack]; exact Nat.zero_le _⟩
  rw [s.heldPairs_eq, State.backPairs, h.runList]
  simp [stack, stackPairs]

theorem State.LinksLegal.reset : State.reset.LinksLegal := .of_cold (fun l => ⟨_, Port.cold_get _ l⟩) rfl rfl rfl

theorem State.PatchLegal.reset : State.reset.PatchLegal := by
  have empty (n : Fin 4) : State.reset.bank n = [] := Table.get_fill _ n
  have unwritten (n : Fin 4) : State.reset.storedBanks.get n = ⟨false, []⟩ := Table.get_fill _ n
  refine ⟨fun n => ?_, fun n => ?_, nofun⟩
  · rw [empty]
    exact .nil
  · rw [unwritten]
    exact .nil

theorem State.RigLegal.reset : State.reset.RigLegal := ⟨.default, .default, countLawFaults_default.symm⟩

theorem State.ParksLegal.reset : State.reset.ParksLegal := ⟨Nat.zero_le _, .nil, nofun⟩

/-- Settles O60: the cue store and the engine are blank (`Blank.reset`), the links cold, the store and the park list empty. -/
theorem resetMeetsEveryInvariant : Obligations.ResetMeetsEveryInvariant := by
  have engine : State.reset.EngineLegal := State.engineLegal_iff_sound.2 (.of_blank .reset)
  exact ⟨.reset, .of_blank .reset, engine.runList, engine, .of_blank .reset, .of_blank .reset, .reset, .reset, .reset⟩

end Sys2Proof.Machine
end

section

namespace Sys2Proof.Machine

/-! ### One step -/

/-- Settles O1: the given queue has `c` at its front, and taking it leaves the rest waiting (`step_front`). -/
theorem stepRunsTheFrontCommand : Obligations.StepRunsTheFrontCommand :=
  fun _ _ _ => step_front rfl

end Sys2Proof.Machine
end
